-- ==== Sys2Proof/Word.lean ====
section
/-! DEFINITION. The word of the block and its two indices (00_scope.md R10, 10_state.md R21, R43). -/

namespace Sys2Proof

/-- A word is 32 bits, numbered from 0 at the least significant bit (R10). -/
abbrev Word := BitVec 32

/-- A node index as the `NODE` field of a command word can hold it: 0 to 15 (R9, R101). -/
abbrev NodeId := Fin 16

/-- The two command banks (R21): `fg` is bank 0 (foreground), `irq` is bank 1 (interrupt context). -/
inductive BankId where
  | fg
  | irq
  deriving DecidableEq, Repr

/-- The bank's number, as `PROT.OWNER` and `FAULT.BANK` hold it (R31, R40). -/
def BankId.bit : BankId → Bool
  | .fg => false
  | .irq => true

/-- The other bank. -/
def BankId.other : BankId → BankId
  | .fg => .irq
  | .irq => .fg

end Sys2Proof
end

