-- ==== Sys2Proof/Config.lean ====
section
/-! DEFINITION. The implementation parameters of 00_scope.md R8 as plain data, their constraints (R9), their defaults,
and the two open ones (`PLL_LOCK_MAX_CYCLES`, `PORT_BASE[b]`), which are opaque. -/

namespace Sys2Proof

/-- The three clock domains (00_scope.md glossary, 41_clock.md R141): every `CAN(n)` is the one domain `can` (R147). -/
inductive Domain where
  | core
  | periph
  | can
  deriving DecidableEq, Repr

/-- The parameters of R8. A state carries them as plain data, so a claim about every state is a claim about every
value of them ("must be carried as a free parameter in every claim"); no step changes them.
DESIGN CHOICE (log 3): held beside the block's state. -/
structure Params where
  /-- `N_NODE`, number of CAN nodes -/
  nNode : Nat
  /-- `N_MBX`, message objects per node -/
  nMbx : Nat
  /-- `DLC_MAX`, largest data length -/
  dlcMax : Nat
  /-- `NQ_MIN`, `NQ_MAX`, bounds of the total time quanta -/
  nqMin : Nat
  nqMax : Nat
  /-- `TSEG1_MAX`, `TSEG2_MAX`, `SJW_MAX`, `BRP_MAX` -/
  tseg1Max : Nat
  tseg2Max : Nat
  sjwMax : Nat
  brpMax : Nat
  /-- `BUSOFF_TEC_THRESHOLD`, `TEC_MAX` -/
  busoffTec : Nat
  tecMax : Nat
  /-- `RECOV_SEQ`, `RECOV_BITS`; the second enters no rule (R276) -/
  recovSeq : Nat
  recovBits : Nat
  /-- `PLL_LOCK_MAX_CYCLES`, copied into the 32-bit `WAITLIM` (R144) -/
  pllLockMax : Word
  /-- `F_OSC_MIN`, `F_OSC_MAX` -/
  fOscMin : Nat
  fOscMax : Nat
  /-- `P_MAX`, `N_MAX`, `K_MAX` -/
  pMax : Nat
  nMax : Nat
  kMax : Nat
  /-- `F_VCO_MIN`, `F_VCO_MAX` -/
  fVcoMin : Nat
  fVcoMax : Nat
  /-- `D_MAX`, largest domain divider -/
  dMax : Nat
  /-- `F_DOM_MIN[d]`, `F_DOM_MAX[d]` -/
  fCoreMin : Nat
  fCoreMax : Nat
  fPeriphMin : Nat
  fPeriphMax : Nat
  fCanMin : Nat
  fCanMax : Nat
  /-- `CLK_TOL_PPM` -/
  clkTolPpm : Nat
  /-- `PRIO_MAX` -/
  prioMax : Nat
  /-- `PORT_BASE[0]`, `PORT_BASE[1]` -/
  portBase0 : Word
  portBase1 : Word
  deriving DecidableEq, Repr

namespace Params

/-- `F_DOM_MIN[d]`. -/
def domMin (p : Params) : Domain → Nat
  | .core => p.fCoreMin
  | .periph => p.fPeriphMin
  | .can => p.fCanMin

/-- `F_DOM_MAX[d]`. -/
def domMax (p : Params) : Domain → Nat
  | .core => p.fCoreMax
  | .periph => p.fPeriphMax
  | .can => p.fCanMax

/-- `PORT_BASE[b]`. -/
def portBase (p : Params) : BankId → Word
  | .fg => p.portBase0
  | .irq => p.portBase1

/-- The constraints every instantiation keeps (R9), with `DLC_MAX` at most 8 ("`DLC_MAX` fixed at 8",
93_implementation_defined.md U1; DEDUCED, log 16). -/
abbrev wf (p : Params) : Prop :=
  (1 ≤ p.nNode ∧ p.nNode ≤ 16) ∧ (1 ≤ p.nMbx ∧ p.nMbx ≤ 32) ∧
  (3 ≤ p.nqMin ∧ p.nqMin ≤ p.nqMax ∧ p.nqMax ≤ 1 + p.tseg1Max + p.tseg2Max) ∧
  1 ≤ p.sjwMax ∧ p.tseg1Max ≤ 31 ∧ p.tseg2Max ≤ 15 ∧ p.sjwMax ≤ 7 ∧ p.brpMax ≤ 2047 ∧
  (p.busoffTec < p.tecMax ∧ p.tecMax ≤ 511) ∧ p.recovSeq ≤ 255 ∧
  (p.pMax ≤ 255 ∧ p.nMax ≤ 255 ∧ p.kMax ≤ 255) ∧ p.dMax ≤ 15 ∧ p.prioMax ≤ 255 ∧
  (p.fOscMin < 2 ^ 32 ∧ p.fOscMax < 2 ^ 32 ∧ p.fVcoMin < 2 ^ 32 ∧ p.fVcoMax < 2 ^ 32) ∧
  (p.fCoreMin < 2 ^ 32 ∧ p.fCoreMax < 2 ^ 32 ∧ p.fPeriphMin < 2 ^ 32 ∧ p.fPeriphMax < 2 ^ 32 ∧
    p.fCanMin < 2 ^ 32 ∧ p.fCanMax < 2 ^ 32) ∧ p.dlcMax ≤ 8

/-- The 64-byte windows of the two banks do not overlap and do not pass the top of the host's address space: what
20_memory.md R80 requires of the platform. -/
abbrev portsDisjoint (p : Params) : Prop :=
  p.portBase0.toNat + 64 ≤ 2 ^ 32 ∧ p.portBase1.toNat + 64 ≤ 2 ^ 32 ∧
  (p.portBase0.toNat + 64 ≤ p.portBase1.toNat ∨ p.portBase1.toNat + 64 ≤ p.portBase0.toNat)

end Params

/-- `PLL_LOCK_MAX_CYCLES`: OPEN, no default (R8). No proof can see its value (log 4). -/
opaque Config.pllLockMaxCycles : Word

/-- `PORT_BASE[0]`: OPEN, left to the platform (R8, R80; log 4). -/
opaque Config.portBase0 : Word

/-- `PORT_BASE[1]`: OPEN, left to the platform (R8, R80; log 4). -/
opaque Config.portBase1 : Word

/-- The default column of R8. -/
def Config.defaults : Params where
  nNode := 4
  nMbx := 32
  dlcMax := 8
  nqMin := 8
  nqMax := 25
  tseg1Max := 16
  tseg2Max := 8
  sjwMax := 4
  brpMax := 1024
  busoffTec := 255
  tecMax := 511
  recovSeq := 128
  recovBits := 11
  pllLockMax := Config.pllLockMaxCycles
  fOscMin := 8000000
  fOscMax := 40000000
  pMax := 16
  nMax := 128
  kMax := 128
  fVcoMin := 400000000
  fVcoMax := 800000000
  dMax := 15
  fCoreMin := 1000000
  fCoreMax := 300000000
  fPeriphMin := 1000000
  fPeriphMax := 100000000
  fCanMin := 1000000
  fCanMax := 80000000
  clkTolPpm := 1000
  prioMax := 255
  portBase0 := Config.portBase0
  portBase1 := Config.portBase1

end Sys2Proof
end

