-- ==== Sys2Proof/Syntax.lean ====
section
/-! DEFINITION. The 25 commands of 30_encoding.md R104, one constructor per row of opcode_table.json, in the table's
order. Class C0 commands carry nothing; class CN commands carry the node index of their `NODE` field (R102). Operands
are not part of the command word: they stand in the bank's `ARG` registers (R103). -/

namespace Sys2Proof

inductive Instr where
  | nop
  | guardAcq
  | guardRel
  | regRead
  | clkSelect
  | clkConfigure
  | clkWaitLock
  | clkFreq
  | clkReinit
  | clkDomainEnable
  | btCompute
  | mbxAlloc (n : NodeId)
  | mbxReleaseAll (n : NodeId)
  | mbxRead (n : NodeId)
  | nodeConfigure (n : NodeId)
  | nodeStart (n : NodeId)
  | nodeTransmit (n : NodeId)
  | nodeTryReceive (n : NodeId)
  | nodeBusState (n : NodeId)
  | nodeSleep (n : NodeId)
  | nodeWake (n : NodeId)
  | nodeRecover (n : NodeId)
  | irqEnable (n : NodeId)
  | irqDisable (n : NodeId)
  | irqAck (n : NodeId)
  deriving DecidableEq, Repr

end Sys2Proof
end

