-- ==== Sys2Proof/WellFormed.lean ====
section
/-! DEFINITION. What a command must satisfy beyond its shape: a class CN command names a node the block has,
`n < N_NODE` (30_encoding.md R102, R106). -/

namespace Sys2Proof

/-- The node a command names; none for class C0 (R102). -/
def Instr.node : Instr → Option NodeId
  | .nop | .guardAcq | .guardRel | .regRead | .clkSelect | .clkConfigure | .clkWaitLock | .clkFreq
  | .clkReinit | .clkDomainEnable | .btCompute => none
  | .mbxAlloc n | .mbxReleaseAll n | .mbxRead n | .nodeConfigure n | .nodeStart n | .nodeTransmit n
  | .nodeTryReceive n | .nodeBusState n | .nodeSleep n | .nodeWake n | .nodeRecover n
  | .irqEnable n | .irqDisable n | .irqAck n => some n

/-- Well-formed for a block of `nNode` nodes: the one check of R106 that the type does not already make. -/
def Instr.wf (nNode : Nat) (i : Instr) : Bool :=
  match i.node with
  | none => true
  | some n => decide (n.val < nNode)

end Sys2Proof
end

