-- ==== Sys2Proof/Decode.lean ====
section
/-! DEFINITION. The decoder of 30_encoding.md R100 to R107, total on every 32-bit word and rejecting by name, and after
it the encoder written from the same opcode map (R104). -/

namespace Sys2Proof

/-- Why a command word is illegal, the four disjuncts of R106. -/
inductive Illegal where
  /-- `word[31:12] != 0` -/
  | reservedBits
  /-- `OPC` is not in R104 (R107) -/
  | unknownOpcode
  /-- class C0 with `NODE != 0` -/
  | nodeOnClassC0
  /-- class CN with `NODE >= N_NODE` -/
  | noSuchNode
  deriving DecidableEq, Repr

/-- `OPC = word[7:0]` (R101). -/
def opcOf (w : Word) : BitVec 8 := w.extractLsb' 0 8

/-- `NODE = word[11:8]` (R101). -/
def nodeOf (w : Word) : NodeId := (w.extractLsb' 8 4).toFin

/-- `ZERO = word[31:12]` (R101). -/
def zeroOf (w : Word) : BitVec 20 := w.extractLsb' 12 20

/-- A row of the opcode map: a block-wide command, or a per-node command waiting for its node (R102). -/
inductive OpRow where
  | c0 (i : Instr)
  | cn (i : NodeId → Instr)

/-- The opcode map of R104; every other opcode is reserved (R107). -/
def opRow (opc : BitVec 8) : Option OpRow :=
  match opc.toNat with
  | 0x00 => some (.c0 .nop)
  | 0x01 => some (.c0 .guardAcq)
  | 0x02 => some (.c0 .guardRel)
  | 0x03 => some (.c0 .regRead)
  | 0x10 => some (.c0 .clkSelect)
  | 0x11 => some (.c0 .clkConfigure)
  | 0x12 => some (.c0 .clkWaitLock)
  | 0x13 => some (.c0 .clkFreq)
  | 0x14 => some (.c0 .clkReinit)
  | 0x15 => some (.c0 .clkDomainEnable)
  | 0x20 => some (.c0 .btCompute)
  | 0x30 => some (.cn .mbxAlloc)
  | 0x31 => some (.cn .mbxReleaseAll)
  | 0x32 => some (.cn .mbxRead)
  | 0x40 => some (.cn .nodeConfigure)
  | 0x41 => some (.cn .nodeStart)
  | 0x42 => some (.cn .nodeTransmit)
  | 0x43 => some (.cn .nodeTryReceive)
  | 0x44 => some (.cn .nodeBusState)
  | 0x45 => some (.cn .nodeSleep)
  | 0x46 => some (.cn .nodeWake)
  | 0x47 => some (.cn .nodeRecover)
  | 0x50 => some (.cn .irqEnable)
  | 0x51 => some (.cn .irqDisable)
  | 0x52 => some (.cn .irqAck)
  | _ => none

/-- The decoder of a block with `nNode` nodes: every word is one row of R104 or illegal by R106 (R107, R122). -/
def decode (nNode : Nat) (w : Word) : Except Illegal Instr :=
  if zeroOf w ≠ 0 then .error .reservedBits
  else
    match opRow (opcOf w) with
    | none => .error .unknownOpcode
    | some (.c0 i) => if nodeOf w = 0 then .ok i else .error .nodeOnClassC0
    | some (.cn i) => if (nodeOf w).val < nNode then .ok (i (nodeOf w)) else .error .noSuchNode

/-- The opcode of a command (R104). -/
def Instr.opc : Instr → BitVec 8
  | .nop => 0x00
  | .guardAcq => 0x01
  | .guardRel => 0x02
  | .regRead => 0x03
  | .clkSelect => 0x10
  | .clkConfigure => 0x11
  | .clkWaitLock => 0x12
  | .clkFreq => 0x13
  | .clkReinit => 0x14
  | .clkDomainEnable => 0x15
  | .btCompute => 0x20
  | .mbxAlloc _ => 0x30
  | .mbxReleaseAll _ => 0x31
  | .mbxRead _ => 0x32
  | .nodeConfigure _ => 0x40
  | .nodeStart _ => 0x41
  | .nodeTransmit _ => 0x42
  | .nodeTryReceive _ => 0x43
  | .nodeBusState _ => 0x44
  | .nodeSleep _ => 0x45
  | .nodeWake _ => 0x46
  | .nodeRecover _ => 0x47
  | .irqEnable _ => 0x50
  | .irqDisable _ => 0x51
  | .irqAck _ => 0x52

/-- The command word `OPC | n << 8` (R101, R119); `NODE` is 0 for class C0. -/
def encode (i : Instr) : Word :=
  (0 : BitVec 20) ++ BitVec.ofNat 4 ((i.node.getD 0).val) ++ i.opc

/-- The command the decoder of the default block (`N_NODE` = 4, R8) reads from a table word: one 32-bit word, its bit 0
the table's bit 0 (R10, R122). Bits of `w` above `nbits` are not part of the word. -/
def decodeTableWord (nbits w : Nat) : Option Instr :=
  match decode Config.defaults.nNode (BitVec.ofNat 32 (w % 2 ^ nbits)) with
  | .ok i => some i
  | .error _ => none

end Sys2Proof
end

