-- ==== Sys2Proof/Machine/State.lean ====
section
/-! DEFINITION. The state of the block (10_state.md R20 to R53) as plain data, field by field, its reset (R58, R340), the
inputs a schedule is made of (00_scope.md R16, 46_hardware_events.md R270) and the reasons a step can stop. -/

namespace Sys2Proof.Machine

/-- The values of `STAT.CODE` (30_encoding.md R105); no other 8-bit value occurs. -/
inductive ResultCode where
  | ok
  | empty
  | guardAlreadyHeld
  | guardNotHeld
  | clkInvalidTarget
  | clkLockTimeout
  | clkBadState
  | clkNotLocked
  | clkDomainOff
  | btUnachievable
  | btFreqTooLow
  | btFreqTooHigh
  | poolExhausted
  | cfgNotInInit
  | cfgNotConfigured
  | nodeBadState
  | recoverTimeout
  | txNoFreeMailbox
  | txNotNormal
  | badReg
  | pending
  | faulted
  deriving DecidableEq, Repr

/-- `WAITCTL.KIND` (R26); the value 3 never occurs. -/
inductive WaitKind where
  | none
  | lock
  | recov
  deriving DecidableEq, Repr

/-- One command bank with its wait bookkeeping (R21 to R26). -/
@[ext]
structure Bank where
  cmd : Word
  /-- `STAT.CODE` -/
  code : ResultCode
  /-- `STAT.BUSY` -/
  busy : Bool
  arg0 : Word
  arg1 : Word
  arg2 : Word
  arg3 : Word
  arg4 : Word
  res0 : Word
  res1 : Word
  res2 : Word
  res3 : Word
  res4 : Word
  res5 : Word
  waitCnt : Word
  waitLim : Word
  /-- `WAITCTL.KIND` -/
  waitKind : WaitKind
  /-- `WAITCTL.NODE` -/
  waitNode : NodeId
  deriving DecidableEq, Repr

/-- `PROT` (R31). -/
structure Prot where
  unlocked : Bool
  held : Bool
  owner : BankId
  deriving DecidableEq, Repr

/-- `FAULT.CAUSE` (60_exceptions.md R301). -/
inductive FaultCause where
  | illegalCmd
  | assertMbxId
  | assertPayload
  | assertArg
  deriving DecidableEq, Repr

/-- What the fault latch records (R40, R304). `FAULT.F = 1` is the presence of a record. -/
structure FaultRecord where
  cause : FaultCause
  opc : BitVec 8
  node : BitVec 4
  bank : BankId
  deriving DecidableEq, Repr

/-- `PLLSTATE` (R34, R35): an explicit tagged variant (R13). -/
inductive PllState where
  | disabled
  | freeRunning
  | prescaleSettling
  | locked
  | failed
  deriving DecidableEq, Repr

/-- `PLLSTAT` (R34). -/
structure PllStat where
  state : PllState
  lockBit : Bool
  oscRun : Bool
  deriving DecidableEq, Repr

/-- `PLLCON` (R33): the triple, actual values. -/
structure PllCon where
  p : BitVec 8
  n : BitVec 8
  k : BitVec 8
  deriving DecidableEq, Repr

/-- `CCUCON` (R37): the per-domain dividers; 0 means unused. -/
structure CcuCon where
  dCore : BitVec 4
  dPeriph : BitVec 4
  dCan : BitVec 4
  deriving DecidableEq, Repr

/-- `CLKEN` (R38). -/
structure ClkEn where
  core : Bool
  periph : Bool
  can : Bool
  deriving DecidableEq, Repr

/-- `NSTATE` (R44): an explicit tagged variant (R13). -/
inductive NodeState where
  | init
  | normal
  | sleep
  | busOff
  deriving DecidableEq, Repr

/-- The BTR word's fields (R45, R116): actual values. -/
structure Btr where
  brp : BitVec 11
  tseg1 : BitVec 5
  tseg2 : BitVec 4
  sjw : BitVec 3
  deriving DecidableEq, Repr

/-- The three event kinds of the interrupt boundary (R49, R118). -/
inductive EventKind where
  | txc
  | rxp
  | berr
  deriving DecidableEq, Repr

/-- One flag per event kind: `NIP` and the enable bits of `NIE` (R49, R50). -/
structure KindBits where
  txc : Bool
  rxp : Bool
  berr : Bool
  deriving DecidableEq, Repr

/-- The three stored priorities of `NIE` (R49). -/
structure KindPrios where
  txc : BitVec 8
  rxp : BitVec 8
  berr : BitVec 8
  deriving DecidableEq, Repr

/-- The eleven registers of one node (R43 to R51). -/
@[ext]
structure NodeRegs where
  /-- `NSTAT.STATE` -/
  state : NodeState
  /-- `NSTAT.CONFIGURED` -/
  configured : Bool
  /-- `NSTAT.RXLOST` -/
  rxLost : Bool
  /-- `NSTAT.RECOVERING` -/
  recovering : Bool
  nbtr : Btr
  nbitrate : Word
  nsp : BitVec 10
  /-- `NECNT.TEC` -/
  tec : BitVec 9
  /-- `NRECCNT.CNT` -/
  recCnt : BitVec 8
  /-- `NIE[2:0]` -/
  nie : KindBits
  /-- `NIE[31:8]` -/
  prio : KindPrios
  nip : KindBits
  nalloc : Word
  ndir : Word
  nbusy : Word
  deriving DecidableEq, Repr

/-- The mailbox space (20_memory.md R70 (3)): the written words by address, strictly rising addresses, no entry equal to
the reset word 0 (R52), which is what an unlisted address reads as. DESIGN CHOICE (log 9): the block's unit of
addressing is the 32-bit word and "there is no byte address inside the block" (R70), so a cell is a word. -/
abbrev Memory := List (Nat × Word)

/-- A `CanFrame` as the protocol engine hands it over (R274). -/
structure CanFrame where
  ide : Bool
  rtr : Bool
  dlc : BitVec 4
  id : Word
  dl : Word
  dh : Word
  deriving DecidableEq, Repr

/-- The widths a byte-addressed host bus can produce (20_memory.md R77). -/
inductive BusWidth where
  | byte
  | half
  | word
  deriving DecidableEq, Repr

/-- One step of one agent (00_scope.md R16). The first three are the host's (agent `HOST_FG` on bank 0, `HOST_IRQ` on
bank 1), the rest are the seven hardware events of 46_hardware_events.md. -/
inductive Input where
  /-- `PortRead(b, i)` (R71, R72) -/
  | portRead (b : BankId) (i : Fin 16)
  /-- `PortWrite(b, i, v)` (R71, R72); a write of slot 0 issues a command (R121) -/
  | portWrite (b : BankId) (i : Fin 16) (v : Word)
  /-- a read access of a byte-addressed host bus (R71, R77) -/
  | busRead (addr : Word) (width : BusWidth)
  /-- a write access of a byte-addressed host bus (R71, R77) -/
  | busWrite (addr : Word) (width : BusWidth) (v : Word)
  /-- R271 -/
  | lockSet
  /-- R272 -/
  | waitStep (b : BankId)
  /-- R273 -/
  | txDone (n : NodeId) (m : Nat)
  /-- R274 -/
  | rxFrame (n : NodeId) (f : CanFrame)
  /-- R275 -/
  | busError (n : NodeId) (v : Nat)
  /-- R276 -/
  | idleSeq (n : NodeId)
  /-- R277 -/
  | reset
  deriving DecidableEq, Repr

/-- The state: the block's registers (R20), then what the model holds beside them (logs 1, 3, 5, 6, 7). -/
@[ext]
structure State where
  bank0 : Bank
  bank1 : Bank
  prot : Prot
  /-- `FAULT`; `none` is `F = 0` -/
  faultReg : Option FaultRecord
  pllstat : PllStat
  oscfreq : Word
  pllcon : PllCon
  ccucon : CcuCon
  clken : ClkEn
  fpll : Word
  freqCore : Word
  freqPeriph : Word
  freqCan : Word
  /-- the node registers by node index; places at and above `N_NODE` are never used (log 8) -/
  nodes : Vector NodeRegs 16
  /-- the message objects of all nodes -/
  mbx : Memory
  /-- the parameters of R8 (not state of the block; no step changes them) -/
  params : Params
  /-- the coming steps of all agents, in the order the environment chose (R270, R361) -/
  schedule : List Input
  /-- the bank whose command executes: the `b` of every command rule -/
  issuer : BankId
  /-- the word the last port read returned to the host (R72) -/
  readData : Word
  /-- a `CMD` write to a busy bank was ignored (R109); R362 asks a model to flag it -/
  ignoredCmd : Bool
  deriving DecidableEq, Repr

/-- Why the machine stops with a fault. The block's own faults are not here: they are the latch of R304, a next state. -/
inductive Fault where
  /-- Raised by `WAIT_STEP(b)` on a bank with `BUSY = 1` and `WAITCTL.KIND = 0`, which R272 and V10 call unreachable.
  Safe: the model stops where the spec says no run can come. -/
  | pollWithoutKind (b : BankId)
  /-- Raised by a host bus access to an address in neither bank's window: the two banks are "the only space the host bus
  reaches" (R70). Safe: the access is not the block's. -/
  | noSuchPortAddress (addr : Word)
  deriving DecidableEq, Repr

/-- Why a step is given no meaning. -/
inductive Refusal where
  /-- An arm of `exec` whose instruction has no meaning yet; no arm uses it now. Safe. -/
  | notModelled (mnemonic : String)
  /-- A scheduled hardware event whose enabling condition does not hold: it "can occur only in states where it holds"
  (46_hardware_events.md, R271 to R276). Safe: no such step exists. -/
  | eventNotEnabled (event : String)
  /-- A scheduled hardware event with a parameter outside its range: no such node or object, a counter above `TEC_MAX`
  (R273, R275). Safe: no such step exists. -/
  | eventParameter (event : String)
  /-- An `RX_FRAME` whose frame is not well-formed: "the model gives such an event no move" (V12). Safe. -/
  | illFormedFrame
  /-- A byte, half-word or misaligned access of the host bus, which the model "must refuse" (R77). Safe. -/
  | narrowPortAccess
  deriving DecidableEq, Repr

/-- A bank at reset (R58, R340). -/
def Bank.reset : Bank where
  cmd := 0
  code := .ok
  busy := false
  arg0 := 0
  arg1 := 0
  arg2 := 0
  arg3 := 0
  arg4 := 0
  res0 := 0
  res1 := 0
  res2 := 0
  res3 := 0
  res4 := 0
  res5 := 0
  waitCnt := 0
  waitLim := 0
  waitKind := .none
  waitNode := 0

/-- A node's registers at reset (R58, R340). -/
def NodeRegs.reset : NodeRegs where
  state := .init
  configured := false
  rxLost := false
  recovering := false
  nbtr := ⟨0, 0, 0, 0⟩
  nbitrate := 0
  nsp := 0
  tec := 0
  recCnt := 0
  nie := ⟨false, false, false⟩
  prio := ⟨0, 0, 0⟩
  nip := ⟨false, false, false⟩
  nalloc := 0
  ndir := 0
  nbusy := 0

/-- The reset state of a block with parameters `p` (R340): every register 0. The model's own fields: an empty schedule,
bank 0, read data 0, nothing flagged (DESIGN CHOICE, logs 1, 5, 6, 7). -/
def State.resetWith (p : Params) : State where
  bank0 := Bank.reset
  bank1 := Bank.reset
  prot := ⟨false, false, .fg⟩
  faultReg := none
  pllstat := ⟨.disabled, false, false⟩
  oscfreq := 0
  pllcon := ⟨0, 0, 0⟩
  ccucon := ⟨0, 0, 0⟩
  clken := ⟨false, false, false⟩
  fpll := 0
  freqCore := 0
  freqPeriph := 0
  freqCan := 0
  nodes := Vector.replicate 16 NodeRegs.reset
  mbx := []
  params := p
  schedule := []
  issuer := .fg
  readData := 0
  ignoredCmd := false

/-- The machine right after reset, with the default parameters of R8. -/
def State.reset : State := State.resetWith Config.defaults

end Sys2Proof.Machine
end

