-- ==== Sys2Proof/Machine/Flags.lean ====
section
/-! DEFINITION. Flags and fields: the numbers of the tagged values, the 32-bit views of the structured registers
(10_state.md R31 to R51), the fields of `MOCTRL` (R53) and bits of the bitmaps (R51). Every view leaves the reserved
bits 0 (R57). -/

namespace Sys2Proof.Machine

/-- One bit as a word. -/
def bitW (b : Bool) : Word := if b then 1 else 0

/-- A field of `n` bits as a word, zero-extended (`zext_32`, R12). -/
def fieldW {n : Nat} (v : BitVec n) : Word := v.zeroExtend 32

/-- The number of a result code (R105). -/
def ResultCode.num : ResultCode → BitVec 8
  | .ok => 0x00
  | .empty => 0x01
  | .guardAlreadyHeld => 0x10
  | .guardNotHeld => 0x11
  | .clkInvalidTarget => 0x20
  | .clkLockTimeout => 0x21
  | .clkBadState => 0x22
  | .clkNotLocked => 0x23
  | .clkDomainOff => 0x24
  | .btUnachievable => 0x30
  | .btFreqTooLow => 0x31
  | .btFreqTooHigh => 0x32
  | .poolExhausted => 0x40
  | .cfgNotInInit => 0x50
  | .cfgNotConfigured => 0x51
  | .nodeBadState => 0x52
  | .recoverTimeout => 0x53
  | .txNoFreeMailbox => 0x60
  | .txNotNormal => 0x61
  | .badReg => 0x70
  | .pending => 0xFE
  | .faulted => 0xFF

/-- `STAT`: `CODE` in `[7:0]`, `BUSY` in `[8]` (R23). -/
def Bank.stat (bk : Bank) : Word := fieldW bk.code.num ||| bitW bk.busy <<< 8

/-- The number of a wait kind (R26). -/
def WaitKind.num : WaitKind → Word
  | .none => 0
  | .lock => 1
  | .recov => 2

/-- `WAITCTL`: `KIND` in `[1:0]`, `NODE` in `[7:4]` (R26). -/
def Bank.waitCtl (bk : Bank) : Word := bk.waitKind.num ||| BitVec.ofNat 32 bk.waitNode.val <<< 4

/-- `PROT`: `UNLOCKED` 0, `HELD` 1, `OWNER` 2 (R31). -/
def Prot.word (p : Prot) : Word := bitW p.unlocked ||| bitW p.held <<< 1 ||| bitW p.owner.bit <<< 2

/-- The number of a fault cause (R301). -/
def FaultCause.num : FaultCause → Word
  | .illegalCmd => 1
  | .assertMbxId => 2
  | .assertPayload => 3
  | .assertArg => 4

/-- `FAULT`: `F` 0, `CAUSE` `[7:4]`, `OPC` `[15:8]`, `NODE` `[19:16]`, `BANK` 24 (R40). -/
def faultWord : Option FaultRecord → Word
  | none => 0
  | some r => 1 ||| r.cause.num <<< 4 ||| fieldW r.opc <<< 8 ||| fieldW r.node <<< 16 ||| bitW r.bank.bit <<< 24

/-- The number of a PLL state (R34). -/
def PllState.num : PllState → Word
  | .disabled => 0
  | .freeRunning => 1
  | .prescaleSettling => 2
  | .locked => 3
  | .failed => 4

/-- `PLLSTAT`: `STATE` `[2:0]`, `LOCKBIT` 8, `OSCRUN` 9 (R34). -/
def PllStat.word (p : PllStat) : Word := p.state.num ||| bitW p.lockBit <<< 8 ||| bitW p.oscRun <<< 9

/-- `PLLCON` and the PNK word: `P` `[7:0]`, `N` `[15:8]`, `K` `[23:16]` (R33, R111). -/
def PllCon.word (c : PllCon) : Word := fieldW c.p ||| fieldW c.n <<< 8 ||| fieldW c.k <<< 16

/-- `CCUCON`: `D_CORE` `[3:0]`, `D_PERIPH` `[7:4]`, `D_CAN` `[11:8]` (R37). -/
def CcuCon.word (c : CcuCon) : Word := fieldW c.dCore ||| fieldW c.dPeriph <<< 4 ||| fieldW c.dCan <<< 8

/-- `CLKEN`: `EN_CORE` 0, `EN_PERIPH` 1, `EN_CAN` 2 (R38). -/
def ClkEn.word (c : ClkEn) : Word := bitW c.core ||| bitW c.periph <<< 1 ||| bitW c.can <<< 2

/-- `CLKEN.EN_d` (R38). -/
def ClkEn.get (c : ClkEn) : Domain → Bool
  | .core => c.core
  | .periph => c.periph
  | .can => c.can

/-- `CLKEN.EN_d <- 1` (R149). -/
def ClkEn.enable (c : ClkEn) : Domain → ClkEn
  | .core => { c with core := true }
  | .periph => { c with periph := true }
  | .can => { c with can := true }

/-- `ID`: `N_NODE` in `[4:0]`, `N_MBX` in `[13:8]` (R41). -/
def idWord (p : Params) : Word := BitVec.ofNat 32 p.nNode ||| BitVec.ofNat 32 p.nMbx <<< 8

/-- The number of a node state (R44). -/
def NodeState.num : NodeState → Word
  | .init => 0
  | .normal => 1
  | .sleep => 2
  | .busOff => 3

/-- `NSTAT`: `STATE` `[1:0]`, `CONFIGURED` 4, `RXLOST` 5, `RECOVERING` 6 (R44). -/
def NodeRegs.nstat (r : NodeRegs) : Word :=
  r.state.num ||| bitW r.configured <<< 4 ||| bitW r.rxLost <<< 5 ||| bitW r.recovering <<< 6

/-- The BTR word: `BRP` `[10:0]`, `TSEG1` `[20:16]`, `TSEG2` `[27:24]`, `SJW` `[30:28]` (R45, R116). -/
def Btr.word (t : Btr) : Word :=
  fieldW t.brp ||| fieldW t.tseg1 <<< 16 ||| fieldW t.tseg2 <<< 24 ||| fieldW t.sjw <<< 28

/-- The bit of one event kind (R49, R50). -/
def KindBits.get (x : KindBits) : EventKind → Bool
  | .txc => x.txc
  | .rxp => x.rxp
  | .berr => x.berr

/-- Write the bit of one event kind. -/
def KindBits.set (x : KindBits) (k : EventKind) (v : Bool) : KindBits :=
  match k with
  | .txc => { x with txc := v }
  | .rxp => { x with rxp := v }
  | .berr => { x with berr := v }

/-- The priority field of one event kind (R49). -/
def KindPrios.get (x : KindPrios) : EventKind → BitVec 8
  | .txc => x.txc
  | .rxp => x.rxp
  | .berr => x.berr

/-- Write the priority field of one event kind. -/
def KindPrios.set (x : KindPrios) (k : EventKind) (v : BitVec 8) : KindPrios :=
  match k with
  | .txc => { x with txc := v }
  | .rxp => { x with rxp := v }
  | .berr => { x with berr := v }

/-- Kind `k` in bit `k` (R49, R50). -/
def KindBits.word (x : KindBits) : Word := bitW x.txc ||| bitW x.rxp <<< 1 ||| bitW x.berr <<< 2

/-- `NIE`: enables in `[2:0]`, priorities from bit 8 (R49). -/
def NodeRegs.nieWord (r : NodeRegs) : Word :=
  r.nie.word ||| fieldW r.prio.txc <<< 8 ||| fieldW r.prio.rxp <<< 16 ||| fieldW r.prio.berr <<< 24

/-- `NIP[k] <- 1` if `NIE[k] = 1`: an event sets the latch of its kind only when the kind is enabled (R50, R311). -/
def NodeRegs.latch (r : NodeRegs) (k : EventKind) : NodeRegs :=
  if r.nie.get k then { r with nip := r.nip.set k true } else r

/-- Bit `m` of a bitmap (R51). -/
def bitmapGet (w : Word) (m : Nat) : Bool := w.getLsbD m

/-- Write bit `m` of a bitmap (R51). -/
def bitmapSet (w : Word) (m : Nat) (v : Bool) : Word :=
  if v then w ||| BitVec.twoPow 32 m else w &&& ~~~(BitVec.twoPow 32 m)

/-- `MOCTRL.ALLOC` (R53). -/
def moAlloc (w : Word) : Bool := w.getLsbD 0

/-- `MOCTRL.DIR`, 1 for Transmit (R53). -/
def moDir (w : Word) : Bool := w.getLsbD 1

/-- `MOCTRL.FKIND`, 1 for a range (R53). -/
def moFkind (w : Word) : Bool := w.getLsbD 2

/-- `MOCTRL.FIDE` (R53). -/
def moFide (w : Word) : Bool := w.getLsbD 3

/-- `MOCTRL.BUSY` (R53). -/
def moBusy (w : Word) : Bool := w.getLsbD 4

/-- `MOCTRL.DLC` (R53). -/
def moDlc (w : Word) : BitVec 4 := w.extractLsb' 8 4

/-- `MOCTRL.RTR` (R53). -/
def moRtr (w : Word) : Bool := w.getLsbD 12

/-- `MOCTRL.IDE` (R53). -/
def moIde (w : Word) : Bool := w.getLsbD 13

/-- A freshly allocated `MOCTRL`: `1 | dir<<1 | fkind<<2 | fide<<3` (R191). -/
def moFresh (dir fkind fide : Bool) : Word := 1 ||| bitW dir <<< 1 ||| bitW fkind <<< 2 ||| bitW fide <<< 3

/-- `MOCTRL.BUSY <- v`, every other bit kept. -/
def moSetBusy (w : Word) (v : Bool) : Word := bitmapSet w 4 v

/-- `MOCTRL.DLC <- dlc ; .RTR <- rtr ; .IDE <- ide ; .BUSY <- 1`, every other bit kept (R212, R274). -/
def moSetFrame (w : Word) (dlc : BitVec 4) (rtr ide : Bool) : Word :=
  (w &&& 0xFFFFC0EF) ||| 0x10 ||| fieldW dlc <<< 8 ||| bitW rtr <<< 12 ||| bitW ide <<< 13

end Sys2Proof.Machine
end

