-- ==== Sys2Proof/Machine/Ops.lean ====
section
/-! DEFINITION. The named operations every rule is written with: the mailbox memory (20_memory.md R70, R74), the banks and
nodes, `return`, `start_wait`, `finish` (10_state.md R28), the fault entry (60_exceptions.md R304, R305) with its only
exit, reset (R306, R277), the internal acquire and release (40_guard.md R132), and the pool-wide writes. -/

namespace Sys2Proof.Machine

/-- What a step or a command answers. -/
abbrev Result := Host.Outcome State Fault Refusal

/-- The word at an address; an unlisted address reads the reset word 0 (R52). -/
def Memory.read : Memory → Nat → Word
  | [], _ => 0
  | (k, v) :: t, a => if k = a then v else Memory.read t a

/-- Write a word, keeping the canonical form: writing 0 removes the entry. -/
def Memory.write : Memory → Nat → Word → Memory
  | [], a, v => if v = 0 then [] else [(a, v)]
  | (k, x) :: t, a, v =>
    if a < k then (if v = 0 then (k, x) :: t else (a, v) :: (k, x) :: t)
    else if a = k then (if v = 0 then t else (a, v) :: t)
    else (k, x) :: Memory.write t a v

/-- The canonical form: addresses strictly rising, no entry equal to the word an unlisted address reads as. -/
abbrev Memory.wf (mem : Memory) : Prop :=
  mem.Pairwise (fun x y => x.1 < y.1) ∧ ∀ c ∈ mem, c.2 ≠ 0

/-- The address of word `w` of object `m` of node `n` (R70 (3), R74): eight places an object, 32 objects a node. The
numbering is the model's own (log 9); the space is addressed by `(n, m, w)`. -/
def moAddr (n : NodeId) (m w : Nat) : Nat := n.val * 256 + m * 8 + w

/-- `MbxRead(n, m, w)` (R74). -/
def State.mbxRead (s : State) (n : NodeId) (m w : Nat) : Word := s.mbx.read (moAddr n m w)

/-- `MbxWrite(n, m, w, v)` (R74). -/
def State.mbxWrite (s : State) (n : NodeId) (m w : Nat) (v : Word) : State :=
  { s with mbx := s.mbx.write (moAddr n m w) v }

/-- Word 0, `MOCTRL(n,m)` (R52). -/
def State.moctrl (s : State) (n : NodeId) (m : Nat) : Word := s.mbxRead n m 0

/-- Bank `b` (R21). -/
def State.bank (s : State) : BankId → Bank
  | .fg => s.bank0
  | .irq => s.bank1

/-- Replace bank `b`. -/
def State.setBank (s : State) (b : BankId) (bk : Bank) : State :=
  match b with
  | .fg => { s with bank0 := bk }
  | .irq => { s with bank1 := bk }

/-- The bank whose command executes: the `b` of the command rules. -/
def State.cur (s : State) : Bank := s.bank s.issuer

/-- Replace the issuing bank. -/
def State.setCur (s : State) (bk : Bank) : State := s.setBank s.issuer bk

/-- The registers of node `n` (R43). -/
def State.node (s : State) (n : NodeId) : NodeRegs := s.nodes[n.val]

/-- Replace the registers of node `n`. -/
def State.setNode (s : State) (n : NodeId) (r : NodeRegs) : State := { s with nodes := s.nodes.set n.val r }

/-- `PROT <- p` (R31). -/
def State.setProt (s : State) (p : Prot) : State := { s with prot := p }

/-- `FAULT <- r` (R40). -/
def State.setFault (s : State) (r : FaultRecord) : State := { s with faultReg := some r }

/-- `PLLSTAT <- p` (R34). -/
def State.setPll (s : State) (p : PllStat) : State := { s with pllstat := p }

/-- `OSCFREQ <- osc ; PLLCON <- pll ; CCUCON <- ccu`: the protected clock registers (R42). -/
def State.setClock (s : State) (osc : Word) (pll : PllCon) (ccu : CcuCon) : State :=
  { s with oscfreq := osc, pllcon := pll, ccucon := ccu }

/-- `FPLL`, `FREQ_CORE`, `FREQ_PERIPH`, `FREQ_CAN` (R39). -/
def State.setFreqs (s : State) (f fCore fPeriph fCan : Word) : State :=
  { s with fpll := f, freqCore := fCore, freqPeriph := fPeriph, freqCan := fCan }

/-- `CLKEN <- c` (R38). -/
def State.setClken (s : State) (c : ClkEn) : State := { s with clken := c }

/-- The schedule moved on to `rest` (log 1). -/
def State.moved (s : State) (rest : List Input) : State := { s with schedule := rest }

/-- Bank `b` issues the command that runs next (log 5). -/
def State.setIssuer (s : State) (b : BankId) : State := { s with issuer := b }

/-- The word a port read returns to the host (R72; log 6). -/
def State.setReadData (s : State) (v : Word) : State := { s with readData := v }

/-- A `CMD` write to a busy bank was ignored (R109, R362; log 7). -/
def State.flagIgnored (s : State) : State := { s with ignoredCmd := true }

/-- `CMD[b] <- word`, with bank `b` issuing (R121). -/
def State.takeCommand (s : State) (b : BankId) (word : Word) : State :=
  (s.setBank b { s.bank b with cmd := word }).setIssuer b

/-- `return CODE` (R12): the command ends with the code in `STAT.CODE` of its bank and no further change. -/
def State.ret (s : State) (c : ResultCode) : Result := .next (s.setCur { s.cur with code := c })

/-- `start_wait(kind, n, limit)` of the issuing bank (R28): the command is then *Waiting* (R17). -/
def State.startWait (s : State) (kind : WaitKind) (n : NodeId) (limit : Word) : Result :=
  .next (s.setCur { s.cur with
    waitKind := kind, waitNode := n, waitLim := limit, waitCnt := 0, busy := true, code := .pending })

/-- `finish(CODE)` of a poll step of bank `b` (R28): `WAITCNT` and `WAITLIM` keep their last values. -/
def State.finish (s : State) (b : BankId) (c : ResultCode) : Result :=
  .next (s.setBank b { s.bank b with waitKind := .none, waitNode := 0, busy := false, code := c })

/-- `WAITCNT[b] <- WAITCNT[b] + 1` in a poll step (R146, R218). -/
def State.countPoll (s : State) (b : BankId) : Result :=
  .next (s.setBank b { s.bank b with waitCnt := (s.bank b).waitCnt + 1 })

/-- `NSTAT[n].RECOVERING <- v`. -/
def State.setRecovering (s : State) (n : NodeId) (v : Bool) : State :=
  s.setNode n { s.node n with recovering := v }

/-- Abort the wait of bank `c` at a fault entry (R305): only a busy bank changes. -/
def State.abortWait (s : State) (c : BankId) : State :=
  if (s.bank c).busy then
    let s1 := if (s.bank c).waitKind = .recov then s.setRecovering (s.bank c).waitNode false else s
    s1.setBank c { s1.bank c with waitKind := .none, waitNode := 0, busy := false, code := .faulted }
  else s

/-- TAKING THE BLOCK'S EXCEPTION, `raise Fault(cause)` (R304): the latch records the cause, bits `[7:0]` and `[11:8]` of
the command word, which is in `CMD[b]` already (R121), and the bank; the waits of both banks are aborted (R305); the
issuing bank shows `FAULTED`. Nothing else changes. There is no return from it but reset (R306). -/
def State.raiseFault (s : State) (cause : FaultCause) : Result :=
  let w := s.cur.cmd
  let s1 := s.setFault ⟨cause, w.extractLsb' 0 8, w.extractLsb' 8 4, s.issuer⟩
  let s2 := (s1.abortWait .fg).abortWait .irq
  .next (s2.setCur { s2.cur with code := .faulted, busy := false })

/-- `RESET` (R277, R340), the only exit from the fault latch (R306): every register of R20 at its reset value. What is
not state of the block stays: the parameters (R20), the schedule still to come and the model's own fields (log 17). -/
def State.resetBlock (s : State) : State :=
  { State.resetWith s.params with
    schedule := s.schedule, issuer := s.issuer, readData := s.readData, ignoredCmd := s.ignoredCmd }

/-- The unlock handshake, `Locked -> Unlocked` (R130, R132). -/
def State.acquire (s : State) : State := s.setProt ⟨true, true, s.issuer⟩

/-- The re-lock handshake (R131, R132). -/
def State.release (s : State) : State := s.setProt ⟨false, false, .fg⟩

/-- The internal acquire and release around `body` (R132), the rest of the command after it. The whole is one atomic step,
so no other agent sees the acquired guard. -/
def State.guarded (s : State) (body : State → State) (rest : State → Result) : Result :=
  if s.prot.held then s.ret .guardAlreadyHeld else rest (body s.acquire).release

/-- Write the bits of object `m` in the three bitmaps (R51), in the step that writes its `MOCTRL` (R54). -/
def State.setBitmaps (s : State) (n : NodeId) (m : Nat) (alloc dir busy : Bool) : State :=
  s.setNode n { s.node n with
    nalloc := bitmapSet (s.node n).nalloc m alloc,
    ndir := bitmapSet (s.node n).ndir m dir,
    nbusy := bitmapSet (s.node n).nbusy m busy }

/-- `MOCTRL(n,m).BUSY <- v ; NBUSY[n][m] <- v` (R213, R218, R273). -/
def State.setMoBusy (s : State) (n : NodeId) (m : Nat) (v : Bool) : State :=
  let s1 := s.mbxWrite n m 0 (moSetBusy (s.moctrl n m) v)
  s1.setNode n { s1.node n with nbusy := bitmapSet (s1.node n).nbusy m v }

/-- Store a frame in object `m` and mark it busy, the filter words kept (R212, R274). The data words are already masked
by R76. -/
def State.storeFrame (s : State) (n : NodeId) (m : Nat) (dlc : BitVec 4) (rtr ide : Bool) (id dl dh : Word) : State :=
  let s1 := s.mbxWrite n m 0 (moSetFrame (s.moctrl n m) dlc rtr ide)
  let s2 := ((s1.mbxWrite n m 1 id).mbxWrite n m 4 dl).mbxWrite n m 5 dh
  s2.setNode n { s2.node n with nbusy := bitmapSet (s2.node n).nbusy m true }

/-- All six words of object `m` at 0. -/
def State.clearObject (s : State) (n : NodeId) (m : Nat) : State :=
  (List.range 6).foldl (fun t w => t.mbxWrite n m w 0) s

/-- `release_all(n)` (R192). -/
def State.releaseAll (s : State) (n : NodeId) : State :=
  let s1 := (List.range s.params.nMbx).foldl (fun t m => t.clearObject n m) s
  s1.setNode n { s1.node n with nalloc := 0, ndir := 0, nbusy := 0 }

/-- `for every m with NDIR[n][m] = 1: MOCTRL(n,m).BUSY <- 0 ; NBUSY[n][m] <- 0` (R218). -/
def State.idleTransmits (s : State) (n : NodeId) : State :=
  (List.range s.params.nMbx).foldl
    (fun t m => if bitmapGet (t.node n).ndir m then t.setMoBusy n m false else t) s

/-- `IRQ[n][k] = NIE[n][k] AND NIP[n][k]`, a function of the state (45_irq_and_system.md R256). -/
def State.irqLine (s : State) (n : NodeId) (k : EventKind) : Bool := (s.node n).nie.get k && (s.node n).nip.get k

/-- The priority exported beside the request output (R256). -/
def State.irqPriority (s : State) (n : NodeId) (k : EventKind) : BitVec 8 := (s.node n).prio.get k

/-- The 32-bit view of node register `k` of R43, `k` = 0 to 10. -/
def NodeRegs.view (r : NodeRegs) (k : Nat) : Option Word :=
  match k with
  | 0 => some r.nstat
  | 1 => some r.nbtr.word
  | 2 => some r.nbitrate
  | 3 => some (fieldW r.nsp)
  | 4 => some (fieldW r.tec)
  | 5 => some (fieldW r.recCnt)
  | 6 => some r.nieWord
  | 7 => some r.nip.word
  | 8 => some r.nalloc
  | 9 => some r.ndir
  | 10 => some r.nbusy
  | _ => none

/-- The 32-bit view of the register with an id of R57; none for every other id. A per-node id is `0x100*(n+1) + k` with
`n < N_NODE` (R43, R255). -/
def State.regView (s : State) (id : Nat) : Option Word :=
  match id with
  | 0x000 => some (idWord s.params)
  | 0x001 => some s.prot.word
  | 0x002 => some (faultWord s.faultReg)
  | 0x003 => some s.pllstat.word
  | 0x004 => some s.oscfreq
  | 0x005 => some s.pllcon.word
  | 0x006 => some s.ccucon.word
  | 0x007 => some s.clken.word
  | 0x008 => some s.fpll
  | 0x009 => some s.freqCore
  | 0x00A => some s.freqPeriph
  | 0x00B => some s.freqCan
  | 0x010 => some s.bank0.waitCnt
  | 0x011 => some s.bank1.waitCnt
  | 0x012 => some s.bank0.waitLim
  | 0x013 => some s.bank1.waitLim
  | 0x014 => some s.bank0.waitCtl
  | 0x015 => some s.bank1.waitCtl
  | i =>
    if h : 0x100 ≤ i ∧ i / 0x100 - 1 < 16 then
      if i / 0x100 - 1 < s.params.nNode then (s.node ⟨i / 0x100 - 1, h.2⟩).view (i % 0x100) else none
    else none

end Sys2Proof.Machine
end

