-- ==== Sys2Proof/Machine/Operands.lean ====
section
/-! DEFINITION. The packed operand and result formats (30_encoding.md R111 to R118) and the payload masking of
20_memory.md R75 and R76. No operand is sign-extended, scaled or shifted. -/

namespace Sys2Proof.Machine

/-- A PNK word with a bit of `[31:24]` set (R111): `ASSERT_ARG` (R303). -/
def pnkReserved (w : Word) : Bool := w.extractLsb' 24 8 ≠ 0

/-- The PNK word's fields (R111). -/
def pnkOf (w : Word) : PllCon := ⟨w.extractLsb' 0 8, w.extractLsb' 8 8, w.extractLsb' 16 8⟩

/-- A triple of numbers as the register holds it; the rules store it only after a check that it fits (R11). -/
def pnkMake (p n k : Nat) : PllCon := ⟨BitVec.ofNat 8 p, BitVec.ofNat 8 n, BitVec.ofNat 8 k⟩

/-- A frame header operand with a bit of `[31:6]` set (R112). -/
def hdrReserved (w : Word) : Bool := w.extractLsb' 6 26 ≠ 0

/-- `DLC = [3:0]` of a frame header operand (R112). -/
def hdrDlc (w : Word) : BitVec 4 := w.extractLsb' 0 4

/-- `RTR = [4]` of a frame header operand (R112). -/
def hdrRtr (w : Word) : Bool := w.getLsbD 4

/-- `IDE = [5]` of a frame header operand (R112). -/
def hdrIde (w : Word) : Bool := w.getLsbD 5

/-- The frame header as a result (R112): `DLC`, `RTR`, `IDE`, `MBX = [12:8]`, `VALID = [31]` = 1. -/
def hdrResult (moctrl : Word) (m : Nat) : Word :=
  fieldW (moDlc moctrl) ||| bitW (moRtr moctrl) <<< 4 ||| bitW (moIde moctrl) <<< 5 |||
    BitVec.ofNat 32 m <<< 8 ||| (1 : Word) <<< 31

/-- The largest identifier of a tag: 29 bits extended, 11 bits standard (R113). -/
def idMax (ide : Bool) : Nat := if ide then 2 ^ 29 - 1 else 2 ^ 11 - 1

/-- An identifier word wider than its tag allows (R113, R303). -/
def idTooWide (ide : Bool) (w : Word) : Bool := idMax ide < w.toNat

/-- A filter control word with a bit of `[31:3]` set (R115). -/
def fctlReserved (w : Word) : Bool := w.extractLsb' 3 29 ≠ 0

/-- `DIR = [0]` of a filter control word (R115). -/
def fctlDir (w : Word) : Bool := w.getLsbD 0

/-- `FKIND = [1]` of a filter control word (R115). -/
def fctlFkind (w : Word) : Bool := w.getLsbD 1

/-- `FIDE = [2]` of a filter control word (R115). -/
def fctlFide (w : Word) : Bool := w.getLsbD 2

/-- A domain id (R117): 0 `CORE`, 1 `PERIPH`, `2 + n` `CAN(n)` for `n < N_NODE`; every other value is none. -/
def domainOf (p : Params) (w : Word) : Option Domain :=
  if 2 + p.nNode ≤ w.toNat then none
  else if w.toNat = 0 then some .core
  else if w.toNat = 1 then some .periph
  else some .can

/-- An event kind operand (R118): 0 `TXC`, 1 `RXP`, 2 `BERR`; every other value is none. -/
def kindOf (w : Word) : Option EventKind :=
  match w.toNat with
  | 0 => some .txc
  | 1 => some .rxp
  | 2 => some .berr
  | _ => none

/-- `lowmask(j) = 2^(8j) - 1` (R76). -/
def lowmask (j : Nat) : Word := BitVec.ofNat 32 (2 ^ (8 * j) - 1)

/-- `mask_data(dlc, rtr, dl, dh)` (R76): bytes at index `>= DLC`, and every byte of a remote frame, are 0. -/
def maskData (dlc : BitVec 4) (rtr : Bool) (dl dh : Word) : Word × Word :=
  if rtr then (0, 0)
  else (dl &&& lowmask (min dlc.toNat 4), dh &&& lowmask (max dlc.toNat 4 - 4))

/-- Payload byte `k` of a pair of data words (R75): byte 0 in the least significant byte of `DATAL`. -/
def payloadByte (dl dh : Word) (k : Nat) : BitVec 8 :=
  if k < 4 then dl.extractLsb' (8 * k) 8 else dh.extractLsb' (8 * (k - 4)) 8

/-- A well-formed frame (R274): `dlc <= DLC_MAX`, identifier within its tag. -/
def CanFrame.wf (p : Params) (f : CanFrame) : Bool := decide (f.dlc.toNat ≤ p.dlcMax) && !idTooWide f.ide f.id

end Sys2Proof.Machine
end

