-- ==== Sys2Proof/Machine/Clock.lean ====
section
/-! DEFINITION. The Clock Tree (41_clock.md): the frequency chain (R140, R141), validity (R142), the search of
`CLK_SELECT` (R143), the six commands and the lock poll step (R146). All arithmetic is on natural numbers (R11). -/

namespace Sys2Proof.Machine

/-- `|a - b|` (R11). -/
def absDiff (a b : Nat) : Nat := (a - b) + (b - a)

/-- `f_vco(f_osc, P, N)` (R140). -/
def fVco (fosc p n : Nat) : Nat := fosc * n / p

/-- `f_pll(f_osc, P, N, K)` (R140). -/
def fPll (fosc p n k : Nat) : Nat := fosc * n / (p * k)

/-- The divider of a domain with target `t` (R141): nearest to `f/t`, half up, at least 1; 0 if unused. -/
def domDiv (f t : Nat) : Nat := if t = 0 then 0 else max 1 ((2 * f + t) / (2 * t))

/-- The frequency of a domain with target `t` (R141). -/
def domFreq (f t : Nat) : Nat := if t = 0 then 0 else f / domDiv f t

/-- The lines of R142 for one domain: divider in range, within the tolerance, within the operating range. -/
def domValid (pr : Params) (d : Domain) (f t : Nat) : Bool :=
  t = 0 ||
    (domDiv f t ≤ pr.dMax &&
      absDiff (domFreq f t) t * 1000000 ≤ pr.clkTolPpm * t &&
      pr.domMin d ≤ domFreq f t && domFreq f t ≤ pr.domMax d)

/-- Oscillator in range (R142, R143). -/
def oscOk (pr : Params) (fosc : Nat) : Bool := pr.fOscMin ≤ fosc && fosc ≤ pr.fOscMax

/-- The triple in range, its VCO in range and its output below `2^32` (R142, and the set `S` of R143). -/
def tripleOk (pr : Params) (fosc p n k : Nat) : Bool :=
  (1 ≤ p && p ≤ pr.pMax) && (1 ≤ n && n ≤ pr.nMax) && (1 ≤ k && k ≤ pr.kMax) &&
    (pr.fVcoMin ≤ fVco fosc p n && fVco fosc p n ≤ pr.fVcoMax) && fPll fosc p n k < 2 ^ 32

/-- `clk_valid(f_osc, P, N, K, t_core, t_periph, t_can)` (R142). -/
def clkValid (pr : Params) (fosc p n k tCore tPeriph tCan : Nat) : Bool :=
  oscOk pr fosc && tripleOk pr fosc p n k &&
    domValid pr .core (fPll fosc p n k) tCore && domValid pr .periph (fPll fosc p n k) tPeriph &&
    domValid pr .can (fPll fosc p n k) tCan

/-- A triple with its error against the target, the key of the search of R143. -/
structure Triple where
  err : Nat
  p : Nat
  n : Nat
  k : Nat
  deriving DecidableEq, Repr

/-- Strictly before in the lexicographic order of `(err, P, N, K)` (R143). -/
def Triple.before (a b : Triple) : Bool :=
  a.err < b.err || (a.err = b.err &&
    (a.p < b.p || (a.p = b.p && (a.n < b.n || (a.n = b.n && a.k < b.k)))))

/-- The better of a triple and the best so far. -/
def Triple.better (best : Option Triple) (c : Triple) : Option Triple :=
  match best with
  | none => some c
  | some b => if c.before b then some c else some b

/-- The set `S` of R143 as a list, each triple with its error. -/
def tripleSet (pr : Params) (fosc ftgt : Nat) : List Triple :=
  (List.range' 1 pr.pMax).flatMap fun p =>
    (List.range' 1 pr.nMax).flatMap fun n =>
      if pr.fVcoMin ≤ fVco fosc p n && fVco fosc p n ≤ pr.fVcoMax then
        ((List.range' 1 pr.kMax).filter fun k => fPll fosc p n k < 2 ^ 32).map fun k =>
          ⟨absDiff (fPll fosc p n k) ftgt, p, n, k⟩
      else []

/-- The least element of `S` (R143); none if `S` is empty. -/
def selectTriple (pr : Params) (fosc ftgt : Nat) : Option Triple :=
  (tripleSet pr fosc ftgt).foldl Triple.better none

/-- The pure part of `CLK_SELECT` (R143): the triple it reports, or none for `CLK_INVALID_TARGET`. -/
def clkSelect (pr : Params) (fosc ftgt : Nat) : Option Triple :=
  if ftgt = 0 || !oscOk pr fosc then none
  else
    match selectTriple pr fosc ftgt with
    | none => none
    | some t => if t.err * 1000000 > pr.clkTolPpm * ftgt then none else some t

/-- `CLK_SELECT` (R143). -/
def execClkSelect (s : State) : Result :=
  let fosc := s.cur.arg0.toNat
  match clkSelect s.params fosc s.cur.arg1.toNat with
  | none => s.ret .clkInvalidTarget
  | some t =>
    (s.setCur { s.cur with
      res0 := (pnkMake t.p t.n t.k).word, res1 := BitVec.ofNat 32 (fPll fosc t.p t.n t.k) }).ret .ok

/-- The protected writes of `CLK_CONFIGURE` (R144): oscillator running with the PLL bypassed (`FreeRunning`), then the
dividers applied (`PrescaleSettling`). `FreeRunning` is passed inside the step and never seen between steps. -/
def State.applyClock (s : State) (fosc f : Nat) (pnk : PllCon) (tCore tPeriph tCan : Nat) : State :=
  let s1 := s.setPll { s.pllstat with oscRun := true, state := .freeRunning }
  let s2 := s1.setClock (BitVec.ofNat 32 fosc) pnk
    ⟨BitVec.ofNat 4 (domDiv f tCore), BitVec.ofNat 4 (domDiv f tPeriph), BitVec.ofNat 4 (domDiv f tCan)⟩
  s2.setPll { s2.pllstat with lockBit := false, state := .prescaleSettling }

/-- `CLK_CONFIGURE` (R144). -/
def execClkConfigure (s : State) : Result :=
  let fosc := s.cur.arg0.toNat
  let pnk := pnkOf s.cur.arg1
  let tCore := s.cur.arg2.toNat
  let tPeriph := s.cur.arg3.toNat
  let tCan := s.cur.arg4.toNat
  let f := fPll fosc pnk.p.toNat pnk.n.toNat pnk.k.toNat
  if pnkReserved s.cur.arg1 then s.raiseFault .assertArg
  else if s.pllstat.state ≠ .disabled ∧ s.pllstat.state ≠ .freeRunning then s.ret .clkBadState
  else if !clkValid s.params fosc pnk.p.toNat pnk.n.toNat pnk.k.toNat tCore tPeriph tCan then s.ret .clkInvalidTarget
  else
    s.guarded (fun t => t.applyClock fosc f pnk tCore tPeriph tCan) fun t =>
      (t.setFreqs (BitVec.ofNat 32 f) (BitVec.ofNat 32 (domFreq f tCore)) (BitVec.ofNat 32 (domFreq f tPeriph))
        (BitVec.ofNat 32 (domFreq f tCan))).startWait .lock 0 s.params.pllLockMax

/-- `CLK_WAIT_LOCK` (R145): refused where no dividers are applied. -/
def execClkWaitLock (s : State) : Result :=
  if s.pllstat.state = .disabled ∨ s.pllstat.state = .freeRunning then s.ret .clkBadState
  else s.startWait .lock 0 s.cur.arg0

/-- The poll step of a `LOCK` wait of bank `b` (R146): the lock bit is sampled before the bound is tested. -/
def State.pollLock (s : State) (b : BankId) : Result :=
  match s.pllstat.state with
  | .locked => s.finish b .ok
  | .failed => s.finish b .clkLockTimeout
  | .prescaleSettling =>
    if s.pllstat.lockBit then (s.setPll { s.pllstat with state := .locked }).finish b .ok
    else if (s.bank b).waitCnt = (s.bank b).waitLim then
      (s.setPll { s.pllstat with state := .failed }).finish b .clkLockTimeout
    else s.countPoll b
  | .disabled => s.finish b .clkBadState
  | .freeRunning => s.finish b .clkBadState

/-- `FREQ_d` (R39). -/
def State.freqOf (s : State) : Domain → Word
  | .core => s.freqCore
  | .periph => s.freqPeriph
  | .can => s.freqCan

/-- `CLK_FREQ` (R147): answers in every PLL state; every `CAN(n)` reads the one `FREQ_CAN`. -/
def execClkFreq (s : State) : Result :=
  match domainOf s.params s.cur.arg0 with
  | none => s.raiseFault .assertArg
  | some d => (s.setCur { s.cur with res0 := s.freqOf d }).ret .ok

/-- `CLK_REINIT` (R148): the explicit re-init, legal only in `Failed`. -/
def execClkReinit (s : State) : Result :=
  if s.pllstat.state ≠ .failed then s.ret .clkBadState
  else
    s.guarded (fun t => t.setClock 0 ⟨0, 0, 0⟩ ⟨0, 0, 0⟩) fun t =>
      ((t.setPll ⟨.disabled, false, false⟩).setFreqs 0 0 0 0).ret .ok

/-- `CLK_DOMAIN_ENABLE` (R149): only in `Locked`, idempotent, no disable. -/
def execClkDomainEnable (s : State) : Result :=
  match domainOf s.params s.cur.arg0 with
  | none => s.raiseFault .assertArg
  | some d =>
    if s.pllstat.state ≠ .locked then s.ret .clkNotLocked
    else if s.freqOf d = 0 then s.ret .clkInvalidTarget
    else (s.setClken (s.clken.enable d)).ret .ok

end Sys2Proof.Machine
end

