-- ==== Sys2Proof/Machine/BitTiming.lean ====
section
/-! DEFINITION. The Bit-Timing Calculator (42_bittiming.md R170 to R179): a pure function of its four operands and the
parameters, on natural numbers without rounding. -/

namespace Sys2Proof.Machine

/-- A candidate of the search (R174, R175): `d` is the numerator of its deviation, `d / nq` per mille. -/
structure BtCand where
  brp : Nat
  nq : Nat
  tseg1 : Nat
  tseg2 : Nat
  d : Nat
  deriving DecidableEq, Repr

/-- `dev(nq, tseg1) = |1000*(1 + tseg1) - sp*nq|` (R175). -/
def btDev (sp nq tseg1 : Nat) : Nat := absDiff (1000 * (1 + tseg1)) (sp * nq)

/-- The legal splits of `nq` quanta, `tseg1` ascending from `max(1, nq-1-TSEG2_MAX)` to `min(TSEG1_MAX, nq-2)` (R175). -/
def btSplits (pr : Params) (nq : Nat) : List Nat :=
  let lo := max 1 (nq - 1 - pr.tseg2Max)
  let hi := min pr.tseg1Max (nq - 2)
  List.range' lo (hi + 1 - lo)

/-- A prescaler is feasible when the division is exact and the quanta count is in range (R174). -/
def btFeasible (pr : Params) (clk br brp : Nat) : Bool :=
  clk % (brp * br) = 0 && pr.nqMin ≤ clk / (brp * br) && clk / (brp * br) ≤ pr.nqMax

/-- The candidates in the order the search visits them: `brp` ascending, then `tseg1` ascending (R174 to R176). -/
def btCandidates (pr : Params) (clk br sp : Nat) : List BtCand :=
  (List.range' 1 pr.brpMax).flatMap fun brp =>
    if btFeasible pr clk br brp then
      let nq := clk / (brp * br)
      (btSplits pr nq).map fun tseg1 => ⟨brp, nq, tseg1, nq - 1 - tseg1, btDev sp nq tseg1⟩
    else []

/-- Keep the best so far unless the candidate's deviation is strictly smaller, `d/nq < best.d/best.nq` cross-multiplied
(R176). -/
def BtCand.better (best : Option BtCand) (c : BtCand) : Option BtCand :=
  match best with
  | none => some c
  | some b => if c.d * b.nq < b.d * c.nq then some c else some b

/-- The search of R176. -/
def btSearch (pr : Params) (clk br sp : Nat) : Option BtCand :=
  (btCandidates pr clk br sp).foldl BtCand.better none

/-- `sjw = min(tseg1, tseg2, SJW_MAX)` (R177). -/
def btSjw (pr : Params) (c : BtCand) : Nat := min (min c.tseg1 c.tseg2) pr.sjwMax

/-- What `bt_compute` returns with success (R178, R179). -/
structure BtResult where
  brp : Nat
  tseg1 : Nat
  tseg2 : Nat
  sjw : Nat
  nq : Nat
  spReal : Nat
  brReal : Nat
  deriving DecidableEq, Repr

/-- The operand condition of `BT_COMPUTE` and `NODE_CONFIGURE` that faults (R179, R303). -/
def btArgBad (br sp : Nat) : Bool := br = 0 || 1000 < sp

/-- `bt_compute(clk, br, sp, tol)` after its operand check (R179): a result or one of the three `BT_*` codes. -/
def btCompute (pr : Params) (clk br sp tol : Nat) : Except ResultCode BtResult :=
  if clk < pr.nqMin * br then .error .btFreqTooLow
  else if pr.brpMax * pr.nqMax * br < clk then .error .btFreqTooHigh
  else
    match btSearch pr clk br sp with
    | none => .error .btUnachievable
    | some c =>
      if tol * c.nq < c.d then .error .btUnachievable
      else .ok ⟨c.brp, c.tseg1, c.tseg2, btSjw pr c, c.nq, 1000 * (1 + c.tseg1) / c.nq, clk / (c.brp * c.nq)⟩

/-- The BTR word's fields of a result (R116, R179). -/
def BtResult.btr (r : BtResult) : Btr :=
  ⟨BitVec.ofNat 11 r.brp, BitVec.ofNat 5 r.tseg1, BitVec.ofNat 4 r.tseg2, BitVec.ofNat 3 r.sjw⟩

/-- Write `RES0` to `RES3` of a bank with a result (R179, R210). -/
def Bank.setBtResult (bk : Bank) (r : BtResult) : Bank :=
  { bk with
    res0 := r.btr.word, res1 := BitVec.ofNat 32 r.spReal, res2 := BitVec.ofNat 32 r.brReal,
    res3 := BitVec.ofNat 32 r.nq }

/-- `BT_COMPUTE` (R179): reads no state of the block but its bank's operands. -/
def execBtCompute (s : State) : Result :=
  let br := s.cur.arg1.toNat
  let sp := s.cur.arg2.toNat
  if btArgBad br sp then s.raiseFault .assertArg
  else
    match btCompute s.params s.cur.arg0.toNat br sp s.cur.arg3.toNat with
    | .error c => s.ret c
    | .ok r => (s.setCur (s.cur.setBtResult r)).ret .ok

/-- The bounds of R173 on the four numbers of a timing, `nq = 1 + tseg1 + tseg2`. -/
abbrev timingOk (pr : Params) (brp tseg1 tseg2 sjw : Nat) : Prop :=
  (pr.nqMin ≤ 1 + tseg1 + tseg2 ∧ 1 + tseg1 + tseg2 ≤ pr.nqMax) ∧ (1 ≤ tseg1 ∧ tseg1 ≤ pr.tseg1Max) ∧
    (1 ≤ tseg2 ∧ tseg2 ≤ pr.tseg2Max) ∧ (1 ≤ sjw ∧ sjw ≤ min (min tseg1 tseg2) pr.sjwMax) ∧
    (1 ≤ brp ∧ brp ≤ pr.brpMax)

/-- Validity of a timing word (R180): its fields satisfy R173. The reserved bits are 0 by the layout. -/
abbrev Btr.valid (pr : Params) (t : Btr) : Prop :=
  timingOk pr t.brp.toNat t.tseg1.toNat t.tseg2.toNat t.sjw.toNat

end Sys2Proof.Machine
end

