-- ==== Sys2Proof/Machine/Guard.lean ====
section
/-! DEFINITION. The Protected-Register Guard commands (40_guard.md R130, R131). -/

namespace Sys2Proof.Machine

/-- `GUARD_ACQ` (R130): never waits; fails for every bank while a guard is outstanding (R134). -/
def execGuardAcq (s : State) : Result :=
  if s.prot.held then s.ret .guardAlreadyHeld else s.acquire.ret .ok

/-- `GUARD_REL` (R131): only the bank that holds the guard releases it. -/
def execGuardRel (s : State) : Result :=
  if !s.prot.held || s.prot.owner ≠ s.issuer then s.ret .guardNotHeld else s.release.ret .ok

end Sys2Proof.Machine
end

