-- ==== Sys2Proof/Machine/Irq.lean ====
section
/-! DEFINITION. The interrupt routing boundary's commands (45_irq_and_system.md R251 to R253). -/

namespace Sys2Proof.Machine

/-- `IRQ_ENABLE` (R251): the priority is stored and exported, never interpreted. -/
def execIrqEnable (n : NodeId) (s : State) : Result :=
  match kindOf s.cur.arg0 with
  | none => s.raiseFault .assertArg
  | some k =>
    if s.params.prioMax < s.cur.arg1.toNat then s.raiseFault .assertArg
    else
      (s.setNode n { s.node n with
        nie := (s.node n).nie.set k true, prio := (s.node n).prio.set k (s.cur.arg1.setWidth 8) }).ret .ok

/-- `IRQ_DISABLE` (R252): a pending latch of the kind is discarded with the enable. -/
def execIrqDisable (n : NodeId) (s : State) : Result :=
  match kindOf s.cur.arg0 with
  | none => s.raiseFault .assertArg
  | some k =>
    (s.setNode n { s.node n with
      nie := (s.node n).nie.set k false, prio := (s.node n).prio.set k 0, nip := (s.node n).nip.set k false }).ret .ok

/-- `IRQ_ACK` (R253). -/
def execIrqAck (n : NodeId) (s : State) : Result :=
  match kindOf s.cur.arg0 with
  | none => s.raiseFault .assertArg
  | some k => (s.setNode n { s.node n with nip := (s.node n).nip.set k false }).ret .ok

end Sys2Proof.Machine
end

