-- ==== Sys2Proof/Machine/Mailbox.lean ====
section
/-! DEFINITION. The Mailbox Pool and arbiter (43_mailbox.md R190 to R195). -/

namespace Sys2Proof.Machine

/-- The least `m < N_MBX` that satisfies a condition, none if there is none. -/
def leastMbx (p : Params) (c : Nat → Bool) : Option Nat := (List.range p.nMbx).find? c

/-- `NALLOC[n] = 2^N_MBX - 1`: no object of the pool is free (R191). -/
def State.poolFull (s : State) (n : NodeId) : Bool := (s.node n).nalloc.toNat = 2 ^ s.params.nMbx - 1

/-- `MBX_ALLOC` (R191): first fit over the fixed-size pool. The search answers an index whenever the pool is not full and
`NALLOC` has no bit at or above `N_MBX` (R51); the last arm is reached in no other state. -/
def execMbxAlloc (n : NodeId) (s : State) : Result :=
  let ctl := s.cur.arg0
  let fide := fctlFide ctl
  if fctlReserved ctl then s.raiseFault .assertArg
  else if idTooWide fide s.cur.arg1 || idTooWide fide s.cur.arg2 then s.raiseFault .assertArg
  else if (s.node n).state ≠ .init then s.ret .cfgNotInInit
  else if s.poolFull n then s.ret .poolExhausted
  else
    match leastMbx s.params fun m => !bitmapGet (s.node n).nalloc m with
    | none => s.ret .poolExhausted
    | some m =>
      let s1 := s.mbxWrite n m 0 (moFresh (fctlDir ctl) (fctlFkind ctl) fide)
      let s2 := ((s1.mbxWrite n m 1 0).mbxWrite n m 2 s.cur.arg1).mbxWrite n m 3 s.cur.arg2
      let s3 := (s2.mbxWrite n m 4 0).mbxWrite n m 5 0
      let s4 := s3.setBitmaps n m true (fctlDir ctl) false
      (s4.setCur { s4.cur with res0 := BitVec.ofNat 32 m }).ret .ok

/-- `MBX_RELEASE_ALL` (R192): `NIP`, `NIE`, `RXLOST` and `CONFIGURED` are not changed. -/
def execMbxReleaseAll (n : NodeId) (s : State) : Result :=
  if (s.node n).state ≠ .init then s.ret .cfgNotInInit else (s.releaseAll n).ret .ok

/-- `MBX_READ` (R193): the one command that takes a mailbox id from the host. -/
def execMbxRead (n : NodeId) (s : State) : Result :=
  let m := s.cur.arg0.toNat
  if s.params.nMbx ≤ m || !bitmapGet (s.node n).nalloc m then s.raiseFault .assertMbxId
  else
    (s.setCur { s.cur with
      res0 := s.mbxRead n m 0, res1 := s.mbxRead n m 1, res2 := s.mbxRead n m 2,
      res3 := s.mbxRead n m 3, res4 := s.mbxRead n m 4, res5 := s.mbxRead n m 5 }).ret .ok

/-- `accepts(n, m, ide, id)` (R194): the tag must match; identifier and mask, or a range with its bounds. -/
def State.accepts (s : State) (n : NodeId) (m : Nat) (ide : Bool) (id : Word) : Bool :=
  moFide (s.moctrl n m) = ide &&
    (if moFkind (s.moctrl n m) then s.mbxRead n m 2 ≤ id && id ≤ s.mbxRead n m 3
     else (id &&& s.mbxRead n m 3) = (s.mbxRead n m 2 &&& s.mbxRead n m 3))

/-- `tx_free(n)` (R195). -/
def State.txFree (s : State) (n : NodeId) : Option Nat :=
  leastMbx s.params fun m =>
    bitmapGet (s.node n).nalloc m && bitmapGet (s.node n).ndir m && !bitmapGet (s.node n).nbusy m

/-- `rx_pending(n)` (R195). -/
def State.rxPending (s : State) (n : NodeId) : Option Nat :=
  leastMbx s.params fun m =>
    bitmapGet (s.node n).nalloc m && !bitmapGet (s.node n).ndir m && bitmapGet (s.node n).nbusy m

/-- `rx_target(n, ide, id)` (R195). -/
def State.rxTarget (s : State) (n : NodeId) (ide : Bool) (id : Word) : Option Nat :=
  leastMbx s.params fun m =>
    bitmapGet (s.node n).nalloc m && !bitmapGet (s.node n).ndir m && !bitmapGet (s.node n).nbusy m &&
      s.accepts n m ide id

/-- `rx_match(n, ide, id)` (R195). -/
def State.rxMatch (s : State) (n : NodeId) (ide : Bool) (id : Word) : Bool :=
  (List.range s.params.nMbx).any fun m =>
    bitmapGet (s.node n).nalloc m && !bitmapGet (s.node n).ndir m && s.accepts n m ide id

end Sys2Proof.Machine
end

