-- ==== Sys2Proof/Machine/Node.lean ====
section
/-! DEFINITION. The CAN Node Driver commands (44_can_node.md R210 to R217) and the recovery poll step (R218). -/

namespace Sys2Proof.Machine

/-- `NSTATE[n] <- x` (R12, R219). -/
def State.setNState (s : State) (n : NodeId) (x : NodeState) : State :=
  s.setNode n { s.node n with state := x }

/-- The node writes of a successful `NODE_CONFIGURE` after the release of its objects (R210): `RXLOST` cleared, `NBTR`
written through the guard. -/
def State.applyTiming (s : State) (n : NodeId) (r : BtResult) : State :=
  s.setNode n { s.node n with nbtr := r.btr }

/-- `NODE_CONFIGURE` (R210): every error return comes before the first write. -/
def execNodeConfigure (n : NodeId) (s : State) : Result :=
  let br := s.cur.arg0.toNat
  let sp := s.cur.arg1.toNat
  if btArgBad br sp then s.raiseFault .assertArg
  else if (s.node n).state ≠ .init then s.ret .cfgNotInInit
  else if s.pllstat.state ≠ .locked then s.ret .clkNotLocked
  else
    match btCompute s.params s.freqCan.toNat br sp s.cur.arg2.toNat with
    | .error c => s.ret c
    | .ok r =>
      if s.prot.held then s.ret .guardAlreadyHeld
      else
        let s1 := s.releaseAll n
        let s2 := s1.setNode n { s1.node n with rxLost := false }
        s2.guarded (fun t => t.applyTiming n r) fun t =>
          let t1 := t.setNode n { t.node n with
            nbitrate := BitVec.ofNat 32 r.brReal, nsp := BitVec.ofNat 10 r.spReal, configured := true }
          (t1.setCur (t1.cur.setBtResult r)).ret .ok

/-- `NODE_START` (R211). -/
def execNodeStart (n : NodeId) (s : State) : Result :=
  if (s.node n).state ≠ .init then s.ret .cfgNotInInit
  else if !(s.node n).configured || (s.node n).nalloc = 0 then s.ret .cfgNotConfigured
  else if !s.clken.can then s.ret .clkDomainOff
  else (s.setNState n .normal).ret .ok

/-- `NODE_TRANSMIT` (R212): claims the lowest idle Transmit object or fails at once. -/
def execNodeTransmit (n : NodeId) (s : State) : Result :=
  let h := s.cur.arg0
  if hdrReserved h then s.raiseFault .assertArg
  else if s.params.dlcMax < (hdrDlc h).toNat then s.raiseFault .assertPayload
  else if idTooWide (hdrIde h) s.cur.arg1 then s.raiseFault .assertArg
  else if (s.node n).state ≠ .normal then s.ret .txNotNormal
  else
    match s.txFree n with
    | none => s.ret .txNoFreeMailbox
    | some m =>
      let d := maskData (hdrDlc h) (hdrRtr h) s.cur.arg2 s.cur.arg3
      let s1 := s.storeFrame n m (hdrDlc h) (hdrRtr h) (hdrIde h) s.cur.arg1 d.1 d.2
      (s1.setCur { s1.cur with res0 := BitVec.ofNat 32 m }).ret .ok

/-- `NODE_TRY_RECEIVE` (R213): legal in every node state; the drained object keeps its words. -/
def execNodeTryReceive (n : NodeId) (s : State) : Result :=
  match s.rxPending n with
  | none => s.ret .empty
  | some m =>
    let s1 := s.setCur { s.cur with
      res0 := hdrResult (s.moctrl n m) m, res1 := s.mbxRead n m 1, res2 := s.mbxRead n m 4, res3 := s.mbxRead n m 5 }
    (s1.setMoBusy n m false).ret .ok

/-- `NODE_BUS_STATE` (R214): a pure read. -/
def execNodeBusState (n : NodeId) (s : State) : Result :=
  (s.setCur { s.cur with res0 := (s.node n).state.num }).ret .ok

/-- `NODE_SLEEP` (R215). -/
def execNodeSleep (n : NodeId) (s : State) : Result :=
  if (s.node n).state ≠ .normal then s.ret .nodeBadState else (s.setNState n .sleep).ret .ok

/-- `NODE_WAKE` (R216). -/
def execNodeWake (n : NodeId) (s : State) : Result :=
  if (s.node n).state ≠ .sleep then s.ret .nodeBadState else (s.setNState n .normal).ret .ok

/-- `NODE_RECOVER` (R217): the count of bus-idle occurrences starts from 0. -/
def execNodeRecover (n : NodeId) (s : State) : Result :=
  if (s.node n).state ≠ .busOff ∨ (s.node n).recovering = true then s.ret .nodeBadState
  else (s.setNode n { s.node n with recovering := true, recCnt := 0 }).startWait .recov n s.cur.arg0

/-- The poll step of a `RECOV` wait of bank `b` (R218): the bus-idle count is sampled before the bound. -/
def State.pollRecov (s : State) (b : BankId) : Result :=
  let n := (s.bank b).waitNode
  if (s.node n).state ≠ .busOff then (s.setRecovering n false).finish b .nodeBadState
  else if s.params.recovSeq ≤ (s.node n).recCnt.toNat then
    ((s.setNode n { s.node n with state := .init, tec := 0, recovering := false }).idleTransmits n).finish b .ok
  else if (s.bank b).waitCnt = (s.bank b).waitLim then (s.setRecovering n false).finish b .recoverTimeout
  else s.countPoll b

end Sys2Proof.Machine
end

