-- ==== Sys2Proof/Machine/System.lean ====
section
/-! DEFINITION. The system commands (45_irq_and_system.md R254, R255). -/

namespace Sys2Proof.Machine

/-- `NOP` (R254). -/
def execNop (s : State) : Result := s.ret .ok

/-- `REG_READ` (R255): an unknown id is a typed error, and `RES0` keeps its value. -/
def execRegRead (s : State) : Result :=
  match s.regView s.cur.arg0.toNat with
  | none => s.ret .badReg
  | some v => (s.setCur { s.cur with res0 := v }).ret .ok

end Sys2Proof.Machine
end

