-- ==== Sys2Proof/Machine/Dispatch.lean ====
section
/-! DEFINITION. "Execute the rule of the row of R104 that word matches" (30_encoding.md R121): one arm per command. -/

namespace Sys2Proof.Machine

def exec (i : Instr) (s : State) : Host.Outcome State Fault Refusal :=
  match i with
  | .nop => Sys2Proof.Machine.execNop s
  | .guardAcq => Sys2Proof.Machine.execGuardAcq s
  | .guardRel => Sys2Proof.Machine.execGuardRel s
  | .regRead => Sys2Proof.Machine.execRegRead s
  | .clkSelect => Sys2Proof.Machine.execClkSelect s
  | .clkConfigure => Sys2Proof.Machine.execClkConfigure s
  | .clkWaitLock => Sys2Proof.Machine.execClkWaitLock s
  | .clkFreq => Sys2Proof.Machine.execClkFreq s
  | .clkReinit => Sys2Proof.Machine.execClkReinit s
  | .clkDomainEnable => Sys2Proof.Machine.execClkDomainEnable s
  | .btCompute => Sys2Proof.Machine.execBtCompute s
  | .mbxAlloc n => Sys2Proof.Machine.execMbxAlloc n s
  | .mbxReleaseAll n => Sys2Proof.Machine.execMbxReleaseAll n s
  | .mbxRead n => Sys2Proof.Machine.execMbxRead n s
  | .nodeConfigure n => Sys2Proof.Machine.execNodeConfigure n s
  | .nodeStart n => Sys2Proof.Machine.execNodeStart n s
  | .nodeTransmit n => Sys2Proof.Machine.execNodeTransmit n s
  | .nodeTryReceive n => Sys2Proof.Machine.execNodeTryReceive n s
  | .nodeBusState n => Sys2Proof.Machine.execNodeBusState n s
  | .nodeSleep n => Sys2Proof.Machine.execNodeSleep n s
  | .nodeWake n => Sys2Proof.Machine.execNodeWake n s
  | .nodeRecover n => Sys2Proof.Machine.execNodeRecover n s
  | .irqEnable n => Sys2Proof.Machine.execIrqEnable n s
  | .irqDisable n => Sys2Proof.Machine.execIrqDisable n s
  | .irqAck n => Sys2Proof.Machine.execIrqAck n s

end Sys2Proof.Machine
end

