-- ==== Sys2Proof/Machine/Events.lean ====
section
/-! DEFINITION. The hardware events (46_hardware_events.md R271 to R277). An event whose enabling condition does not hold
has no step: it is refused by name. -/

namespace Sys2Proof.Machine

/-- An event that names a node: no such step for a node the block does not have (R16, `n < N_NODE`). -/
def State.forNode (s : State) (n : NodeId) (event : String) (r : Result) : Result :=
  if s.params.nNode ≤ n.val then .refused (.eventParameter event) else r

/-- `LOCK_SET` (R271): `PLLSTATE` does not change here. -/
def State.eventLockSet (s : State) : Result :=
  if s.pllstat.state = .prescaleSettling ∧ s.pllstat.lockBit = false then
    .next (s.setPll { s.pllstat with lockBit := true })
  else .refused (.eventNotEnabled "LOCK_SET")

/-- `WAIT_STEP(b)` (R272), the step of `SEQ[b]` (R29). -/
def State.eventWaitStep (s : State) (b : BankId) : Result :=
  if (s.bank b).busy then
    match (s.bank b).waitKind with
    | .lock => s.pollLock b
    | .recov => s.pollRecov b
    | .none => .fault (.pollWithoutKind b)
  else .refused (.eventNotEnabled "WAIT_STEP")

/-- The enabling condition of `TX_DONE(n, m)` (R273). -/
def State.txDoneEnabled (s : State) (n : NodeId) (m : Nat) : Bool :=
  (s.node n).state = .normal && bitmapGet (s.node n).nalloc m && bitmapGet (s.node n).ndir m &&
    bitmapGet (s.node n).nbusy m

/-- `TX_DONE(n, m)` (R273): any busy Transmit object may complete next. -/
def State.eventTxDone (s : State) (n : NodeId) (m : Nat) : Result :=
  s.forNode n "TX_DONE" <|
    if s.params.nMbx ≤ m then .refused (.eventParameter "TX_DONE")
    else if s.txDoneEnabled n m then
      let s1 := s.setMoBusy n m false
      .next (s1.setNode n ((s1.node n).latch .txc))
    else .refused (.eventNotEnabled "TX_DONE")

/-- What a well-formed frame does to node `n` (R274). -/
def State.receive (s : State) (n : NodeId) (f : CanFrame) : State :=
  match (s.node n).state with
  | .normal =>
    match s.rxTarget n f.ide f.id with
    | some m =>
      let d := maskData f.dlc f.rtr f.dl f.dh
      let s1 := s.storeFrame n m f.dlc f.rtr f.ide f.id d.1 d.2
      s1.setNode n ((s1.node n).latch .rxp)
    | none => if s.rxMatch n f.ide f.id then s.setNode n { s.node n with rxLost := true } else s
  | .sleep => s.setNState n .normal
  | .init => s
  | .busOff => s

/-- `RX_FRAME(n, frame)` (R274): it may occur in every state; only a well-formed frame can come (V12). -/
def State.eventRxFrame (s : State) (n : NodeId) (f : CanFrame) : Result :=
  s.forNode n "RX_FRAME" <|
    if f.wf s.params then .next (s.receive n f) else .refused .illFormedFrame

/-- `BUS_ERROR(n, v)` (R275): the threshold comparison is strict; busy Transmit objects stay busy. -/
def State.eventBusError (s : State) (n : NodeId) (v : Nat) : Result :=
  s.forNode n "BUS_ERROR" <|
    if s.params.tecMax < v then .refused (.eventParameter "BUS_ERROR")
    else if (s.node n).state = .normal then
      let r := ({ s.node n with tec := BitVec.ofNat 9 v } : NodeRegs).latch .berr
      .next (s.setNode n (if s.params.busoffTec < v then { r with state := .busOff, recCnt := 0 } else r))
    else .refused (.eventNotEnabled "BUS_ERROR")

/-- `IDLE_SEQ(n)` (R276): one more occurrence, saturating at `RECOV_SEQ`. -/
def State.eventIdleSeq (s : State) (n : NodeId) : Result :=
  s.forNode n "IDLE_SEQ" <|
    if (s.node n).state = .busOff ∧ (s.node n).recovering = true then
      .next (s.setNode n { s.node n with recCnt := BitVec.ofNat 8 (min ((s.node n).recCnt.toNat + 1) s.params.recovSeq) })
    else .refused (.eventNotEnabled "IDLE_SEQ")

/-- `RESET` (R277). -/
def State.eventReset (s : State) : Result := .next s.resetBlock

end Sys2Proof.Machine
end

