-- ==== Sys2Proof/Machine/Port.lean ====
section
/-! DEFINITION. The port space (20_memory.md R71, R72), command issue (30_encoding.md R109, R110, R121), the byte-addressed
host bus (R71, R77), and what each input of a schedule does. -/

namespace Sys2Proof.Machine

/-- What `PortRead(b, i)` returns (R71, R72); reserved slots read 0. -/
def State.portRead (s : State) (b : BankId) (i : Fin 16) : Word :=
  match i.val with
  | 0 => (s.bank b).cmd
  | 1 => (s.bank b).stat
  | 2 => (s.bank b).arg0
  | 3 => (s.bank b).arg1
  | 4 => (s.bank b).arg2
  | 5 => (s.bank b).arg3
  | 6 => (s.bank b).arg4
  | 8 => (s.bank b).res0
  | 9 => (s.bank b).res1
  | 10 => (s.bank b).res2
  | 11 => (s.bank b).res3
  | 12 => (s.bank b).res4
  | 13 => (s.bank b).res5
  | _ => 0

/-- `PortRead(b, i)` as a step: the word goes to the host, the block is unchanged (R78). -/
def State.doPortRead (s : State) (b : BankId) (i : Fin 16) : Result := .next (s.setReadData (s.portRead b i))

/-- The issue step once the bank is free and no fault is latched (R121): `CMD[b] <- word`, then the row's rule, or
`Fault(ILLEGAL_CMD)`. -/
def State.issueFree (s : State) (b : BankId) (word : Word) : Result :=
  let s1 := s.takeCommand b word
  match decode s.params.nNode word with
  | .ok i => exec i s1
  | .error _ => s1.raiseFault .illegalCmd

/-- Command issue, `PortWrite(b, 0, word)` (R121): ignored on a busy bank (R109; flagged as R362 asks), refused after a
fault (R110), executed otherwise. -/
def State.issue (s : State) (b : BankId) (word : Word) : Result :=
  if (s.bank b).busy then .next s.flagIgnored
  else if s.faultReg.isSome then .next (s.setBank b { s.bank b with cmd := word, code := .faulted })
  else s.issueFree b word

/-- What a write of a slot other than `CMD` stores (R72): an `ARG` slot its register, every other slot nothing. -/
def State.storeOperand (s : State) (b : BankId) (i : Fin 16) (v : Word) : State :=
  match i.val with
  | 2 => s.setBank b { s.bank b with arg0 := v }
  | 3 => s.setBank b { s.bank b with arg1 := v }
  | 4 => s.setBank b { s.bank b with arg2 := v }
  | 5 => s.setBank b { s.bank b with arg3 := v }
  | 6 => s.setBank b { s.bank b with arg4 := v }
  | _ => s

/-- `PortWrite(b, i, v)` (R72): slot 0 issues a command, `ARG` slots store at any time, and writes to `STAT`, `RES` and
reserved slots are ignored. DEDUCED: they store while a fault is latched too; R322 is read as a property of what the block
does, and the block never writes `ARG` (R24; log 23). -/
def State.doPortWrite (s : State) (b : BankId) (i : Fin 16) (v : Word) : Result :=
  if i = 0 then s.issue b v
  else .next (s.storeOperand b i v)

/-- The bank whose 64-byte window holds a bus address, and the offset in it (R71). -/
def windowOf (p : Params) (addr : Word) : Option (BankId × Nat) :=
  if p.portBase0.toNat ≤ addr.toNat ∧ addr.toNat < p.portBase0.toNat + 64 then
    some (.fg, addr.toNat - p.portBase0.toNat)
  else if p.portBase1.toNat ≤ addr.toNat ∧ addr.toNat < p.portBase1.toNat + 64 then
    some (.irq, addr.toNat - p.portBase1.toNat)
  else none

/-- The slot a bus access reaches, `PORT_BASE[b] + 4*i` (R71): an access that is not one aligned word is refused (R77),
an address outside both windows does not exist (R70). -/
def State.busAccess (s : State) (addr : Word) (width : BusWidth) (act : BankId → Fin 16 → Result) : Result :=
  match windowOf s.params addr with
  | none => .fault (.noSuchPortAddress addr)
  | some (b, x) =>
    if width = .word ∧ x % 4 = 0 then act b (Fin.ofNat 16 (x / 4)) else .refused .narrowPortAccess

/-- What one step of one agent does (R16). -/
def State.perform (s : State) (a : Input) : Result :=
  match a with
  | .portRead b i => s.doPortRead b i
  | .portWrite b i v => s.doPortWrite b i v
  | .busRead addr width => s.busAccess addr width s.doPortRead
  | .busWrite addr width v => s.busAccess addr width fun b i => s.doPortWrite b i v
  | .lockSet => s.eventLockSet
  | .waitStep b => s.eventWaitStep b
  | .txDone n m => s.eventTxDone n m
  | .rxFrame n f => s.eventRxFrame n f
  | .busError n v => s.eventBusError n v
  | .idleSeq n => s.eventIdleSeq n
  | .reset => s.eventReset

/-- One step of the machine: the next step of the schedule (R82, R270). When the schedule names no further step, nothing
steps and nothing changes: the block does not "change state without a step listed in this spec" (R363; log 1). -/
def State.stepSchedule (s : State) : Result :=
  match s.schedule with
  | [] => .next s
  | a :: rest => (s.moved rest).perform a

/-- The host's write of a command word to `CMD[0]` placed before everything else the schedule holds (R100, R121). -/
def State.placeCommand (s : State) (w : Word) : State :=
  s.moved (.portWrite .fg 0 w :: s.schedule)

end Sys2Proof.Machine
end

