-- ==== Sys2Proof/Machine/Step.lean ====
section
/-! DEFINITION. The step of the machine and the host's way to place one command before it. -/

namespace Sys2Proof.Machine

/-- One step of one agent, the next the schedule names (00_scope.md R15, 20_memory.md R82). -/
def step (s : State) : Host.Outcome State Fault Refusal := s.stepSchedule

/-- `s` with the table word `w` as the command the very next step issues on bank 0 (log 2). -/
def State.withFetchWord (s : State) (nbits w : Nat) : State := s.placeCommand (BitVec.ofNat 32 (w % 2 ^ nbits))

end Sys2Proof.Machine
end

