-- ==== Sys2Proof/Safety.lean ====
section
/-! DEFINITION. What counts as a good state and a good run, in the terms the statements use: the invariants of
10_state.md R59, the end of a run (70_reset_and_hazards.md R364), the fairness hypotheses of 46_hardware_events.md R278,
and the words the frames are written with. -/

namespace Sys2Proof.Machine

/-- R27 for one bank: busy exactly while a wait is in progress, then `PENDING` and within its bound. -/
abbrev Bank.Inv (bk : Bank) : Prop :=
  (bk.busy = true ↔ bk.waitKind ≠ .none) ∧ (bk.busy = true → bk.code = .pending ∧ bk.waitCnt ≤ bk.waitLim)

/-- R27. -/
abbrev State.BankInv (s : State) : Prop := s.bank0.Inv ∧ s.bank1.Inv

/-- R32, and R31's "0 otherwise" of `OWNER`. -/
abbrev State.ProtInv (s : State) : Prop :=
  s.prot.held = s.prot.unlocked ∧ (s.prot.held = false → s.prot.owner = .fg)

/-- R38, and R59's clauses on the PLL: `Locked` has its lock bit, `Disabled` has every clock register 0. -/
abbrev State.ClockInv (s : State) : Prop :=
  (s.clken ≠ ⟨false, false, false⟩ → s.pllstat.state = .locked) ∧
  (s.pllstat.state = .locked → s.pllstat.lockBit = true) ∧
  (s.pllstat.state = .disabled →
    s.oscfreq = 0 ∧ s.pllcon = ⟨0, 0, 0⟩ ∧ s.ccucon = ⟨0, 0, 0⟩ ∧ s.fpll = 0 ∧ s.freqCore = 0 ∧ s.freqPeriph = 0 ∧
    s.freqCan = 0 ∧ s.pllstat.lockBit = false ∧ s.pllstat.oscRun = false)

/-- R50: a pending latch only where the kind is enabled. -/
abbrev NodeRegs.LatchInv (r : NodeRegs) : Prop :=
  (r.nip.txc = true → r.nie.txc = true) ∧ (r.nip.rxp = true → r.nie.rxp = true) ∧
  (r.nip.berr = true → r.nie.berr = true)

/-- R50 for every node. -/
abbrev State.LatchInv (s : State) : Prop := ∀ n : NodeId, (s.node n).LatchInv

/-- R54 and R51 for node `n`: the bitmaps mirror `MOCTRL`, a free object is all 0, `DLC <= 8`, and no bitmap bit at or
above `N_MBX`. -/
abbrev State.PoolInvAt (s : State) (n : NodeId) : Prop :=
  (∀ m < 32,
    bitmapGet (s.node n).nalloc m = moAlloc (s.moctrl n m) ∧
    bitmapGet (s.node n).ndir m = moDir (s.moctrl n m) ∧
    bitmapGet (s.node n).nbusy m = moBusy (s.moctrl n m) ∧
    (moAlloc (s.moctrl n m) = false → ∀ w < 6, s.mbxRead n m w = 0) ∧
    (moDlc (s.moctrl n m)).toNat ≤ 8) ∧
  (∀ m < 32, s.params.nMbx ≤ m → bitmapGet (s.node n).nalloc m = false)

/-- R54 and R51. -/
abbrev State.PoolInv (s : State) : Prop := ∀ n : NodeId, s.PoolInvAt n

/-- R196 (a): the allocated objects of a node are the first ones of its pool. -/
abbrev State.FillInv (s : State) : Prop := ∀ n : NodeId, ∃ k ≤ s.params.nMbx, (s.node n).nalloc.toNat = 2 ^ k - 1

/-- Bank `b` waits for the recovery of node `n`. -/
def State.waitsFor (s : State) (b : BankId) (n : NodeId) : Bool :=
  (s.bank b).waitKind = .recov && (s.bank b).waitNode = n

/-- R59's clause on `RECOVERING`: only in `BusOff`, and exactly one bank waits for it; and no bank waits for the recovery
of a node that is not recovering. -/
abbrev State.RecovInv (s : State) : Prop :=
  ∀ n : NodeId,
    ((s.node n).recovering = true →
      (s.node n).state = .busOff ∧ (s.waitsFor .fg n != s.waitsFor .irq n) = true) ∧
    ((s.node n).recovering = false → s.waitsFor .fg n = false ∧ s.waitsFor .irq n = false)

/-- R59's clauses on a started node, on the error counter and on the applied timing (R180), with the ranges of the two
counters (R275, R48). -/
abbrev State.NodeInv (s : State) : Prop :=
  ∀ n : NodeId,
    ((s.node n).state ≠ .init → (s.node n).configured = true ∧ (s.node n).nalloc ≠ 0) ∧
    (s.params.busoffTec < (s.node n).tec.toNat → (s.node n).state = .busOff) ∧
    (s.node n).tec.toNat ≤ s.params.tecMax ∧ (s.node n).recCnt.toNat ≤ s.params.recovSeq ∧
    ((s.node n).configured = true → (s.node n).nbtr.valid s.params)

/-- The places at and above `N_NODE` hold their reset value (R43; log 8). -/
abbrev State.UnusedInv (s : State) : Prop := ∀ n : NodeId, s.params.nNode ≤ n.val → s.node n = NodeRegs.reset

/-- A latched fault leaves no bank waiting (R305). -/
abbrev State.FaultInv (s : State) : Prop := s.faultReg ≠ none → s.bank0.busy = false ∧ s.bank1.busy = false

/-- The invariants of the whole state (R59), the form of `NALLOC` (R196 (a)), the canonical form of the mailbox memory and the parameter constraints (R9). -/
structure State.Inv (s : State) : Prop where
  params : s.params.wf
  mem : s.mbx.wf
  bank : s.BankInv
  prot : s.ProtInv
  clock : s.ClockInv
  latch : s.LatchInv
  pool : s.PoolInv
  fill : s.FillInv
  recov : s.RecovInv
  node : s.NodeInv
  unused : s.UnusedInv
  fault : s.FaultInv

/-- The slot an input writes, with its bank and the word, directly or over the bus (R71). -/
def Input.slotWrite (p : Params) : Input → Option (BankId × Fin 16 × Word)
  | .portWrite b i w => some (b, i, w)
  | .busWrite addr .word w =>
    match windowOf p addr with
    | some (b, x) => if x % 4 = 0 then some (b, Fin.ofNat 16 (x / 4), w) else none
    | none => none
  | _ => none

/-- The command word an input writes to `CMD[b]` (R72). -/
def Input.command (p : Params) (a : Input) : Option (BankId × Word) :=
  match a.slotWrite p with
  | some (b, i, w) => if i = 0 then some (b, w) else none
  | none => none

/-- The run is over (R364): the host has issued its last command (no input left writes one), no bank is busy, no fault, the
guard is free, no recovery in progress. Hardware events and port accesses that issue no command may remain: frames in flight
are not owed. It says nothing of the analog PLL, of frames on the wire, of the interrupt controller, or of how long anything
took. -/
abbrev State.runOver (s : State) : Prop :=
  (∀ a ∈ s.schedule, a.command s.params = none) ∧ s.bank0.busy = false ∧ s.bank1.busy = false ∧ s.faultReg = none ∧ s.prot.word = 0 ∧
  ∀ n : NodeId, (s.node n).recovering = false

/-- `LOCK_FAIR(c)` (R278 (a)): `LOCK_SET` comes before the `c`-th `WAIT_STEP` of the bank. -/
abbrev lockFair (b : BankId) (c : Nat) (sched : List Input) : Prop :=
  Input.lockSet ∈ sched ∧ (sched.takeWhile (fun a => a ≠ .lockSet)).count (.waitStep b) < c

/-- Node `n` stays in `Normal` on the run from `s` to its end. -/
def State.staysNormal (s : State) (n : NodeId) : Prop :=
  ∀ (k : Nat) (t : State), Host.Core.run core k s = .next t → (t.node n).state = .normal

/-- `TX_FAIR` (R278 (b)) for node `n` on the run from `s`: at each of its points from which the node stays in `Normal`, every
busy Transmit object of the node still gets its `TX_DONE`. -/
abbrev State.txFair (s : State) (n : NodeId) : Prop :=
  ∀ (k : Nat) (t : State), Host.Core.run core k s = .next t → t.staysNormal n →
    ∀ m < t.params.nMbx, t.txDoneEnabled n m = true → Input.txDone n m ∈ t.schedule

/-- `IDLE_FAIR(c)` (R278 (c)): `RECOV_SEQ` occurrences come before the `c`-th `WAIT_STEP` of the bank. -/
abbrev idleFair (b : BankId) (n : NodeId) (recovSeq c : Nat) (sched : List Input) : Prop :=
  ∃ pre post, sched = pre ++ post ∧ recovSeq ≤ pre.count (.idleSeq n) ∧ pre.count (.waitStep b) < c

/-- `STEP_FAIR` (R278 (d)) for bank `b` on the run from `s`: at each of its points where the bank is busy, the bank still
gets a `WAIT_STEP`. -/
abbrev State.stepFair (s : State) (b : BankId) : Prop :=
  ∀ (k : Nat) (t : State), Host.Core.run core k s = .next t → (t.bank b).busy = true → Input.waitStep b ∈ t.schedule

/-- The state in which the rule of a command written to bank `b` runs: the schedule moved on, the word in `CMD[b]`, the
bank issuing (R121). -/
abbrev State.issued (s : State) (b : BankId) (w : Word) (rest : List Input) : State := (s.moved rest).takeCommand b w

/-- The protected registers (R42) agree: `OSCFREQ`, `PLLCON`, `CCUCON` and every `NBTR[n]`. -/
abbrev State.sameProtected (s t : State) : Prop :=
  t.oscfreq = s.oscfreq ∧ t.pllcon = s.pllcon ∧ t.ccucon = s.ccucon ∧ ∀ n : NodeId, (t.node n).nbtr = (s.node n).nbtr

/-- The clock registers (R33 to R39) agree. -/
abbrev State.sameClock (s t : State) : Prop :=
  t.pllstat = s.pllstat ∧ t.oscfreq = s.oscfreq ∧ t.pllcon = s.pllcon ∧ t.ccucon = s.ccucon ∧ t.clken = s.clken ∧
  t.fpll = s.fpll ∧ t.freqCore = s.freqCore ∧ t.freqPeriph = s.freqPeriph ∧ t.freqCan = s.freqCan

/-- Node `n` and its message objects agree: its eleven registers and the six words of each of its objects. -/
abbrev State.sameNode (s t : State) (n : NodeId) : Prop :=
  t.node n = s.node n ∧ ∀ m < 32, ∀ w < 6, t.mbxRead n m w = s.mbxRead n m w

/-- The state after `return c`: only `STAT.CODE` of the issuing bank is written (R12). -/
def State.coded (s : State) (c : ResultCode) : State := s.setCur { s.cur with code := c }

/-- `t` is `s` after the fault entry of the issuing bank with this cause (60_exceptions.md R304, R305). -/
structure State.FaultEntry (s t : State) (cause : FaultCause) : Prop where
  latch : t.faultReg = some ⟨cause, s.cur.cmd.extractLsb' 0 8, s.cur.cmd.extractLsb' 8 4, s.issuer⟩
  bank : ∀ c : BankId, t.bank c =
    if (s.bank c).busy then { s.bank c with waitKind := .none, waitNode := 0, busy := false, code := .faulted }
    else if c = s.issuer then { s.bank c with code := .faulted }
    else s.bank c
  node : ∀ n : NodeId, t.node n =
    if (s.bank0.busy && s.waitsFor .fg n) || (s.bank1.busy && s.waitsFor .irq n) then
      { s.node n with recovering := false }
    else s.node n
  rest : { t with bank0 := s.bank0, bank1 := s.bank1, nodes := s.nodes, faultReg := s.faultReg } = s

/-- Every mailbox word outside object `m` of node `n` reads in `t` as in `s`. -/
abbrev State.sameOutsideObject (s t : State) (n : NodeId) (m : Nat) : Prop :=
  ∀ a : Nat, (∀ w < 6, a ≠ moAddr n m w) → t.mbx.read a = s.mbx.read a

/-- Every mailbox word outside the objects of node `n` reads in `t` as in `s`. -/
abbrev State.sameOutsidePool (s t : State) (n : NodeId) : Prop :=
  ∀ a : Nat, (∀ m < s.params.nMbx, ∀ w < 6, a ≠ moAddr n m w) → t.mbx.read a = s.mbx.read a

/-- The frame of a command of node `n` that ends without a fault: the issuing bank, the node's registers and the mailbox
memory aside, nothing differs. -/
abbrev State.nodeFrame (s t : State) (n : NodeId) : Prop :=
  { t with bank0 := s.bank0, bank1 := s.bank1, nodes := s.nodes, mbx := s.mbx } = s ∧
  t.bank s.issuer.other = s.bank s.issuer.other ∧ ∀ k : NodeId, k ≠ n → t.node k = s.node k

/-- The frame of a hardware event of node `n`: the node's registers and the mailbox memory aside, nothing differs but the
schedule, which has moved on. -/
abbrev State.eventFrame (s t : State) (n : NodeId) (rest : List Input) : Prop :=
  { t with nodes := s.nodes, mbx := s.mbx } = s.moved rest ∧ ∀ k : NodeId, k ≠ n → t.node k = s.node k

/-- The command word the next step writes to `CMD[b]`, directly or over the bus (R71, R72). -/
def State.nextCommand (s : State) : Option (BankId × Word) := s.schedule.head?.bind (·.command s.params)

/-- The slot the next step writes, with its bank and the word. -/
def State.nextWrite (s : State) : Option (BankId × Fin 16 × Word) := s.schedule.head?.bind (·.slotWrite s.params)

/-- The command the next step executes, with its bank: a legal word, a free bank, no latched fault (R121). -/
def State.nextInstr (s : State) : Option (BankId × Instr) :=
  match s.nextCommand with
  | none => none
  | some (b, w) =>
    if (s.bank b).busy || s.faultReg.isSome then none
    else
      match decode s.params.nNode w with
      | .ok i => some (b, i)
      | .error _ => none

/-- The next step executes command `i`, on either bank. -/
abbrev State.runsNext (s : State) (i : Instr) : Prop := s.nextInstr = some (.fg, i) ∨ s.nextInstr = some (.irq, i)

/-- The next step executes command `i` and leaves `OK` in `STAT` of its bank. -/
def State.succeedsNext (s : State) (i : Instr) : Prop :=
  ∃ (b : BankId) (t : State), s.nextInstr = some (b, i) ∧ step s = .next t ∧ (t.bank b).code = .ok

/-- The next input of the schedule. -/
abbrev State.inputIs (s : State) (a : Input) : Prop := s.schedule.head? = some a

/-- The pool of node `n` is emptied by the next step: a release, a configuration or reset (R192, R210, R277). -/
def State.releasesNext (s : State) (n : NodeId) : Prop :=
  s.inputIs .reset ∨ s.succeedsNext (.mbxReleaseAll n) ∨ s.succeedsNext (.nodeConfigure n)

/-- A run from `s` to `t` in which `k` steps are successful `MBX_ALLOC`s of node `n` and no step empties its pool. -/
inductive State.AllocRun (n : NodeId) (s : State) : Nat → State → Prop where
  | start : AllocRun n s 0 s
  | other {k : Nat} {t u : State} (h : AllocRun n s k t) (hs : step t = .next u)
      (ha : ¬t.succeedsNext (.mbxAlloc n)) (hr : ¬t.releasesNext n) : AllocRun n s k u
  | alloc {k : Nat} {t u : State} (h : AllocRun n s k t) (hs : step t = .next u)
      (ha : t.succeedsNext (.mbxAlloc n)) : AllocRun n s (k + 1) u

/-- What R52 and R53 say of the words of object `m` of node `n` beyond R54: `MOCTRL` has no bit outside its fields, the
identifier words are at most 29 bits wide, and 11 where their tag is 0: `IDE` of the stored identifier, `FIDE` of the
filter's two words (R113, and R191's check of them). -/
abbrev State.ObjectInvAt (s : State) (n : NodeId) (m : Nat) : Prop :=
  s.moctrl n m &&& 0xFFFFC0E0 = 0 ∧
  (s.mbxRead n m 1).toNat < 2 ^ 29 ∧ (s.mbxRead n m 2).toNat < 2 ^ 29 ∧ (s.mbxRead n m 3).toNat < 2 ^ 29 ∧
  (moIde (s.moctrl n m) = false → (s.mbxRead n m 1).toNat < 2 ^ 11) ∧
  (moFide (s.moctrl n m) = false → (s.mbxRead n m 2).toNat < 2 ^ 11 ∧ (s.mbxRead n m 3).toNat < 2 ^ 11)

/-- R52 and R53 for every object. -/
abbrev State.ObjectInv (s : State) : Prop := ∀ n : NodeId, ∀ m < 32, s.ObjectInvAt n m

/-- A feasible prescaler with a legal split (42_bittiming.md R174, R175). -/
abbrev btCandidate (pr : Params) (clk br brp tseg1 : Nat) : Prop :=
  (1 ≤ brp ∧ brp ≤ pr.brpMax) ∧ clk % (brp * br) = 0 ∧
  (pr.nqMin ≤ clk / (brp * br) ∧ clk / (brp * br) ≤ pr.nqMax) ∧
  (1 ≤ tseg1 ∧ clk / (brp * br) ≤ tseg1 + 1 + pr.tseg2Max) ∧ (tseg1 ≤ pr.tseg1Max ∧ tseg1 + 2 ≤ clk / (brp * br))

/-- The candidate the search of R176 keeps: no candidate has a smaller deviation, and among equals the smallest prescaler,
then the smallest `tseg1`. -/
abbrev btBest (pr : Params) (clk br sp brp tseg1 : Nat) : Prop :=
  btCandidate pr clk br brp tseg1 ∧
  ∀ brp' tseg1' : Nat, btCandidate pr clk br brp' tseg1' →
    btDev sp (clk / (brp * br)) tseg1 * (clk / (brp' * br)) < btDev sp (clk / (brp' * br)) tseg1' * (clk / (brp * br)) ∨
    (btDev sp (clk / (brp * br)) tseg1 * (clk / (brp' * br)) =
      btDev sp (clk / (brp' * br)) tseg1' * (clk / (brp * br)) ∧
      (brp < brp' ∨ (brp = brp' ∧ tseg1 ≤ tseg1')))

/-- The triple `CLK_SELECT` looks for: in the set `S` of R143, and least in the lexicographic order of
`(|f_pll - f_tgt|, P, N, K)`. -/
abbrev leastTriple (pr : Params) (fosc ftgt p n k : Nat) : Prop :=
  tripleOk pr fosc p n k = true ∧
  ∀ p' n' k' : Nat, tripleOk pr fosc p' n' k' = true →
    absDiff (fPll fosc p n k) ftgt < absDiff (fPll fosc p' n' k') ftgt ∨
    (absDiff (fPll fosc p n k) ftgt = absDiff (fPll fosc p' n' k') ftgt ∧
      (p < p' ∨ (p = p' ∧ (n < n' ∨ (n = n' ∧ k ≤ k')))))

end Sys2Proof.Machine
end

