-- ==== Sys2Proof/Certificates/Slice0/Obligations.lean ====
section
/-! DEFINITION. The statements about the machine, one definition each, for the provers. Each cites the rules of spec/ it
formalises; OBLIGATIONS.json lists them. Operands are the issuing bank's `ARG` registers, `s.cur.arg0` and so on. -/

open Sys2Proof Sys2Proof.Machine

/-! ## Encoding -/

/-- R101, R102, R104: every well-formed command of every block size, with every node index, is read back from its word. -/
def Obligations.DecodeOfEncodeIsTheCommand : Prop :=
  ∀ (nNode : Nat) (i : Instr), i.wf nNode = true → decode nNode (encode i) = .ok i

/-- R107, R122: a word the decoder accepts is the one word of the command it answers, and that command is well-formed. -/
def Obligations.DecodedWordIsItsEncoding : Prop :=
  ∀ (nNode : Nat) (w : Word) (i : Instr), decode nNode w = .ok i → encode i = w ∧ i.wf nNode = true

/-- R106: a word is illegal exactly in the four listed cases, and issuing an illegal word to a free bank of a block without
a latched fault raises `Fault(ILLEGAL_CMD)`. -/
def Obligations.IllegalWordsAreExactlyTheListed : Prop :=
  ∀ (s : State) (b : BankId) (w : Word) (rest : List Input),
    let opc := w.toNat % 256
    let node := w.toNat / 256 % 16
    let c0 := opc ∈ [0x00, 0x01, 0x02, 0x03, 0x10, 0x11, 0x12, 0x13, 0x14, 0x15, 0x20]
    let cn := opc ∈ [0x30, 0x31, 0x32, 0x40, 0x41, 0x42, 0x43, 0x44, 0x45, 0x46, 0x47, 0x50, 0x51, 0x52]
    let illegal := w.toNat / 4096 ≠ 0 ∨ (¬c0 ∧ ¬cn) ∨ (c0 ∧ node ≠ 0) ∨ (cn ∧ s.params.nNode ≤ node)
    ((∃ e, decode s.params.nNode w = .error e) ↔ illegal) ∧
    (illegal → s.schedule = .portWrite b 0 w :: rest → (s.bank b).busy = false → s.faultReg = none →
      ∃ t, step s = .next t ∧ (s.issued b w rest).FaultEntry t .illegalCmd)

/-- R101, R102, R104 on words written out by hand: a sanity check of the table. -/
def Obligations.SampleWordsDecodeAsTheTableSays : Prop :=
  decodeTableWord 32 0x00000000 = some .nop ∧ decodeTableWord 32 0x00000001 = some .guardAcq ∧
  decodeTableWord 32 0x00000011 = some .clkConfigure ∧ decodeTableWord 32 0x00000020 = some .btCompute ∧
  decodeTableWord 32 0x00000130 = some (.mbxAlloc 1) ∧ decodeTableWord 32 0x00000342 = some (.nodeTransmit 3) ∧
  decodeTableWord 32 0x00000252 = some (.irqAck 2) ∧ decodeTableWord 32 0x00000442 = none ∧
  decodeTableWord 32 0x00000111 = none ∧ decodeTableWord 32 0x00001000 = none ∧ decodeTableWord 32 0x00000004 = none

/-! ## Issue, ports and registers -/

/-- R121, its last arm: a legal word written to a free bank of a block without a latched fault runs its command, in the
state in which the word stands in `CMD[b]` and the write is off the schedule. -/
def Obligations.StepRunsTheDecodedCommand : Prop :=
  ∀ (s : State) (b : BankId) (w : Word) (rest : List Input) (i : Instr),
    s.schedule = .portWrite b 0 w :: rest → (s.bank b).busy = false → s.faultReg = none →
    decode s.params.nNode w = .ok i → step s = exec i (s.issued b w rest)

/-- R109 and R110: a `CMD` write to a busy bank changes no register, and one to a free bank after a fault writes only
`CMD[b]` and `STAT[b].CODE`, whatever the word. `schedule` and `ignoredCmd` are the model's own fields (logs 1, 7). -/
def Obligations.BusyBankIgnoresAndFaultRefuses : Prop :=
  ∀ (s : State) (b : BankId) (w : Word) (rest : List Input), s.schedule = .portWrite b 0 w :: rest →
    ((s.bank b).busy = true →
      ∃ t, step s = .next t ∧ { t with schedule := s.schedule, ignoredCmd := s.ignoredCmd } = s) ∧
    ((s.bank b).busy = false → s.faultReg ≠ none →
      step s = .next ((s.moved rest).setBank b { s.bank b with cmd := w, code := .faulted }))

/-- R17: a command issued on a free bank of a block without a latched fault ends in exactly one of *Completed*, *Waiting*
and *Faulted* (the fourth outcome, *Ignored*, is a write that issues nothing); it always answers a next state. -/
def Obligations.EveryCommandHasOneOutcome : Prop :=
  ∀ (i : Instr) (s : State), s.cur.busy = false → s.faultReg = none →
    ∃ t, exec i s = .next t ∧ t.issuer = s.issuer ∧
      ((t.faultReg = none ∧ t.cur.busy = false ∧ t.cur.code ≠ .pending ∧ t.cur.code ≠ .faulted) ∨
        (t.faultReg = none ∧ t.cur.busy = true ∧ t.cur.code = .pending ∧ t.cur.waitKind ≠ .none) ∨
        (t.faultReg ≠ none ∧ t.cur.busy = false ∧ t.cur.code = .faulted))

/-- R71, R72: what each slot of a bank reads, and what a write of each slot but `CMD` stores, "at any time": on a busy
bank too, and while a fault is latched (log 23 says how that stands with R322). `readData` is the model's own field for the
word a read returns (log 6). -/
def Obligations.PortSlotsReadAndWrite : Prop :=
  ∀ (s : State) (b : BankId) (i : Fin 16) (v : Word) (rest : List Input),
    let bk := s.bank b
    let moved := s.moved rest
    (s.schedule = .portRead b i :: rest → ∃ x, step s = .next (moved.setReadData x) ∧
      (i = 0 → x = bk.cmd) ∧ (i = 1 → x.toNat = bk.code.num.toNat + 256 * bk.busy.toNat) ∧
      (i = 2 → x = bk.arg0) ∧ (i = 3 → x = bk.arg1) ∧ (i = 4 → x = bk.arg2) ∧ (i = 5 → x = bk.arg3) ∧
      (i = 6 → x = bk.arg4) ∧ (i = 8 → x = bk.res0) ∧ (i = 9 → x = bk.res1) ∧ (i = 10 → x = bk.res2) ∧
      (i = 11 → x = bk.res3) ∧ (i = 12 → x = bk.res4) ∧ (i = 13 → x = bk.res5) ∧
      (i = 7 ∨ i = 14 ∨ i = 15 → x = 0)) ∧
    (s.schedule = .portWrite b i v :: rest →
      (i = 2 → step s = .next (moved.setBank b { bk with arg0 := v })) ∧
      (i = 3 → step s = .next (moved.setBank b { bk with arg1 := v })) ∧
      (i = 4 → step s = .next (moved.setBank b { bk with arg2 := v })) ∧
      (i = 5 → step s = .next (moved.setBank b { bk with arg3 := v })) ∧
      (i = 6 → step s = .next (moved.setBank b { bk with arg4 := v })) ∧
      (i = 1 ∨ 7 ≤ i.val → step s = .next moved))

/-- R71, R77, R80: where the two windows do not overlap, an aligned word access at `PORT_BASE[b] + 4*i` is the port access
of slot `i`; a narrower or misaligned access of a window is refused; an access outside both windows is not the block's
(DESIGN CHOICE, log 12, for the names of the two stops). -/
def Obligations.BusAccessesReachTheSlots : Prop :=
  ∀ (s : State) (b : BankId) (i : Fin 16) (addr v : Word) (width : BusWidth) (rest : List Input),
    s.params.portsDisjoint →
    (addr = s.params.portBase b + BitVec.ofNat 32 (4 * i.val) →
      (s.schedule = .busRead addr .word :: rest → step s = step (s.moved (.portRead b i :: rest))) ∧
      (s.schedule = .busWrite addr .word v :: rest → step s = step (s.moved (.portWrite b i v :: rest)))) ∧
    (s.schedule = .busRead addr width :: rest ∨ s.schedule = .busWrite addr width v :: rest →
      (∀ x : Nat, x < 64 → addr.toNat = (s.params.portBase b).toNat + x → width ≠ .word ∨ x % 4 ≠ 0 →
        step s = .refused .narrowPortAccess) ∧
      ((∀ c : BankId, addr.toNat < (s.params.portBase c).toNat ∨ (s.params.portBase c).toNat + 64 ≤ addr.toNat) →
        step s = .fault (.noSuchPortAddress addr)))

/-- The bit layouts of R23, R26, R31, R33, R34, R37, R38, R40, R41, R44, R45, R49 and R50 as sums, so that the reserved
bits are 0: the value of each register's 32-bit view is the sum of its fields at their places; and the numbers of every
tagged field, the 22 result codes of R105 and the two banks among them. -/
def Obligations.RegisterWordsPlaceTheirFields : Prop :=
  (∀ bk : Bank, bk.stat.toNat = bk.code.num.toNat + 2 ^ 8 * bk.busy.toNat ∧
    bk.waitCtl.toNat = bk.waitKind.num.toNat + 2 ^ 4 * bk.waitNode.val) ∧
  (∀ p : Prot, p.word.toNat = p.unlocked.toNat + 2 * p.held.toNat + 4 * p.owner.bit.toNat) ∧
  (∀ c : PllCon, c.word.toNat = c.p.toNat + 2 ^ 8 * c.n.toNat + 2 ^ 16 * c.k.toNat) ∧
  (∀ p : PllStat, p.word.toNat = p.state.num.toNat + 2 ^ 8 * p.lockBit.toNat + 2 ^ 9 * p.oscRun.toNat) ∧
  (∀ c : CcuCon, c.word.toNat = c.dCore.toNat + 2 ^ 4 * c.dPeriph.toNat + 2 ^ 8 * c.dCan.toNat) ∧
  (∀ c : ClkEn, c.word.toNat = c.core.toNat + 2 * c.periph.toNat + 4 * c.can.toNat) ∧
  (∀ r : FaultRecord, (faultWord (some r)).toNat =
    1 + 2 ^ 4 * r.cause.num.toNat + 2 ^ 8 * r.opc.toNat + 2 ^ 16 * r.node.toNat + 2 ^ 24 * r.bank.bit.toNat) ∧
  (∀ p : Params, p.nNode < 2 ^ 5 → p.nMbx < 2 ^ 6 → (idWord p).toNat = p.nNode + 2 ^ 8 * p.nMbx) ∧
  (∀ r : NodeRegs, r.nstat.toNat =
      r.state.num.toNat + 2 ^ 4 * r.configured.toNat + 2 ^ 5 * r.rxLost.toNat + 2 ^ 6 * r.recovering.toNat ∧
    r.nbtr.word.toNat =
      r.nbtr.brp.toNat + 2 ^ 16 * r.nbtr.tseg1.toNat + 2 ^ 24 * r.nbtr.tseg2.toNat + 2 ^ 28 * r.nbtr.sjw.toNat ∧
    r.nieWord.toNat =
      r.nie.txc.toNat + 2 * r.nie.rxp.toNat + 4 * r.nie.berr.toNat +
        2 ^ 8 * r.prio.txc.toNat + 2 ^ 16 * r.prio.rxp.toNat + 2 ^ 24 * r.prio.berr.toNat ∧
    r.nip.word.toNat = r.nip.txc.toNat + 2 * r.nip.rxp.toNat + 4 * r.nip.berr.toNat) ∧
  (ResultCode.ok.num = 0x00 ∧ ResultCode.empty.num = 0x01 ∧ ResultCode.guardAlreadyHeld.num = 0x10 ∧
    ResultCode.guardNotHeld.num = 0x11 ∧ ResultCode.clkInvalidTarget.num = 0x20 ∧
    ResultCode.clkLockTimeout.num = 0x21 ∧ ResultCode.clkBadState.num = 0x22 ∧ ResultCode.clkNotLocked.num = 0x23 ∧
    ResultCode.clkDomainOff.num = 0x24 ∧ ResultCode.btUnachievable.num = 0x30 ∧ ResultCode.btFreqTooLow.num = 0x31 ∧
    ResultCode.btFreqTooHigh.num = 0x32 ∧ ResultCode.poolExhausted.num = 0x40 ∧ ResultCode.cfgNotInInit.num = 0x50 ∧
    ResultCode.cfgNotConfigured.num = 0x51 ∧ ResultCode.nodeBadState.num = 0x52 ∧
    ResultCode.recoverTimeout.num = 0x53 ∧ ResultCode.txNoFreeMailbox.num = 0x60 ∧
    ResultCode.txNotNormal.num = 0x61 ∧ ResultCode.badReg.num = 0x70 ∧ ResultCode.pending.num = 0xFE ∧
    ResultCode.faulted.num = 0xFF) ∧
  (BankId.fg.bit = false ∧ BankId.irq.bit = true) ∧
  (WaitKind.none.num = 0 ∧ WaitKind.lock.num = 1 ∧ WaitKind.recov.num = 2) ∧
  (PllState.disabled.num = 0 ∧ PllState.freeRunning.num = 1 ∧ PllState.prescaleSettling.num = 2 ∧
    PllState.locked.num = 3 ∧ PllState.failed.num = 4) ∧
  (NodeState.init.num = 0 ∧ NodeState.normal.num = 1 ∧ NodeState.sleep.num = 2 ∧ NodeState.busOff.num = 3) ∧
  (FaultCause.illegalCmd.num = 1 ∧ FaultCause.assertMbxId.num = 2 ∧ FaultCause.assertPayload.num = 3 ∧
    FaultCause.assertArg.num = 4)

/-- R255 with the ids of R57 and R43: a listed id answers its register, every other id answers `BAD_REG`, and nothing but
`RES0` and `STAT.CODE` of the issuing bank is written. -/
def Obligations.RegReadAnswersTheTable : Prop :=
  ∀ s : State, s.params.nNode ≤ 16 →
    let id := s.cur.arg0.toNat
    let answers (v : Word) := exec .regRead s = .next (s.setCur { s.cur with res0 := v, code := .ok })
    (id = 0x000 → answers (idWord s.params)) ∧ (id = 0x001 → answers s.prot.word) ∧
    (id = 0x002 → answers (faultWord s.faultReg)) ∧ (id = 0x003 → answers s.pllstat.word) ∧
    (id = 0x004 → answers s.oscfreq) ∧ (id = 0x005 → answers s.pllcon.word) ∧ (id = 0x006 → answers s.ccucon.word) ∧
    (id = 0x007 → answers s.clken.word) ∧ (id = 0x008 → answers s.fpll) ∧ (id = 0x009 → answers s.freqCore) ∧
    (id = 0x00A → answers s.freqPeriph) ∧ (id = 0x00B → answers s.freqCan) ∧
    (id = 0x010 → answers s.bank0.waitCnt) ∧ (id = 0x011 → answers s.bank1.waitCnt) ∧
    (id = 0x012 → answers s.bank0.waitLim) ∧ (id = 0x013 → answers s.bank1.waitLim) ∧
    (id = 0x014 → answers s.bank0.waitCtl) ∧ (id = 0x015 → answers s.bank1.waitCtl) ∧
    (∀ n : NodeId, n.val < s.params.nNode →
      let r := s.node n
      let at_ (k : Nat) := id = 0x100 * (n.val + 1) + k
      (at_ 0 → answers r.nstat) ∧ (at_ 1 → answers r.nbtr.word) ∧ (at_ 2 → answers r.nbitrate) ∧
      (at_ 3 → answers (r.nsp.zeroExtend 32)) ∧ (at_ 4 → answers (r.tec.zeroExtend 32)) ∧
      (at_ 5 → answers (r.recCnt.zeroExtend 32)) ∧ (at_ 6 → answers r.nieWord) ∧ (at_ 7 → answers r.nip.word) ∧
      (at_ 8 → answers r.nalloc) ∧ (at_ 9 → answers r.ndir) ∧ (at_ 10 → answers r.nbusy)) ∧
    (¬(id ≤ 0x00B ∨ (0x010 ≤ id ∧ id ≤ 0x015) ∨
        ∃ n < s.params.nNode, 0x100 * (n + 1) ≤ id ∧ id ≤ 0x100 * (n + 1) + 10) →
      exec .regRead s = .next (s.coded .badReg))

/-! ## Guard and system -/

/-- R130, R131: `GUARD_ACQ` takes a free guard for the issuing bank and fails on a held one, whoever holds it; `GUARD_REL`
releases only for the owner. On either bank, with nothing else changed. -/
def Obligations.GuardCommandsSwitchTheGuard : Prop :=
  ∀ s : State,
    (exec .guardAcq s = .next
      (if s.prot.held = true then s.coded .guardAlreadyHeld
       else (s.setProt ⟨true, true, s.issuer⟩).coded .ok)) ∧
    (exec .guardRel s = .next
      (if s.prot.held = false ∨ s.prot.owner ≠ s.issuer then s.coded .guardNotHeld
       else (s.setProt ⟨false, false, .fg⟩).coded .ok))

/-- R254, R214: `NOP` returns `OK`; `NODE_BUS_STATE` returns `OK` with the node's state, 0 `Init`, 1 `Normal`, 2 `Sleep`,
3 `BusOff`. -/
def Obligations.NopAndBusStateReturn : Prop :=
  ∀ (s : State) (n : NodeId),
    exec .nop s = .next (s.coded .ok) ∧
    exec (.nodeBusState n) s = .next (s.setCur { s.cur with
      code := .ok,
      res0 := match (s.node n).state with
        | .init => 0
        | .normal => 1
        | .sleep => 2
        | .busOff => 3 })

/-! ## Clock tree -/

/-- R143: the triple reported is the least in the order of R143, the acceptance test follows, and a target of 0, an
oscillator out of range or an empty set is `CLK_INVALID_TARGET`. -/
def Obligations.ClkSelectFindsTheLeastTriple : Prop :=
  ∀ s : State, s.params.wf →
    let pr := s.params
    let fosc := s.cur.arg0.toNat
    let ftgt := s.cur.arg1.toNat
    if ftgt = 0 ∨ fosc < pr.fOscMin ∨ pr.fOscMax < fosc then exec .clkSelect s = .next (s.coded .clkInvalidTarget)
    else
      ((∀ p n k : Nat, tripleOk pr fosc p n k = false) → exec .clkSelect s = .next (s.coded .clkInvalidTarget)) ∧
      ∀ p n k : Nat, leastTriple pr fosc ftgt p n k →
        if pr.clkTolPpm * ftgt < absDiff (fPll fosc p n k) ftgt * 1000000 then
          exec .clkSelect s = .next (s.coded .clkInvalidTarget)
        else
          exec .clkSelect s = .next (s.setCur { s.cur with
            res0 := BitVec.ofNat 32 (p + 2 ^ 8 * n + 2 ^ 16 * k), res1 := BitVec.ofNat 32 (fPll fosc p n k), code := .ok })

/-- R142, with R140 and R141 written out: what makes a configuration valid. -/
def Obligations.ClockValidityIsItsListOfBounds : Prop :=
  ∀ (pr : Params) (fosc p n k tCore tPeriph tCan : Nat),
    let f := fosc * n / (p * k)
    let divider (t : Nat) := max 1 ((2 * f + t) / (2 * t))
    let good (t lo hi : Nat) := t ≠ 0 →
      divider t ≤ pr.dMax ∧
      (f / divider t - t + (t - f / divider t)) * 1000000 ≤ pr.clkTolPpm * t ∧
      lo ≤ f / divider t ∧ f / divider t ≤ hi
    clkValid pr fosc p n k tCore tPeriph tCan = true ↔
      (pr.fOscMin ≤ fosc ∧ fosc ≤ pr.fOscMax) ∧
      (1 ≤ p ∧ p ≤ pr.pMax ∧ 1 ≤ n ∧ n ≤ pr.nMax ∧ 1 ≤ k ∧ k ≤ pr.kMax) ∧
      (pr.fVcoMin ≤ fosc * n / p ∧ fosc * n / p ≤ pr.fVcoMax) ∧ f < 2 ^ 32 ∧
      good tCore pr.fCoreMin pr.fCoreMax ∧ good tPeriph pr.fPeriphMin pr.fPeriphMax ∧
      good tCan pr.fCanMin pr.fCanMax

/-- R144: the checks of `CLK_CONFIGURE` in their order, the registers it programs, and the wait it starts. -/
def Obligations.ClkConfigureProgramsAndWaits : Prop :=
  ∀ s : State,
    let fosc := s.cur.arg0.toNat
    let p := s.cur.arg1.toNat % 2 ^ 8
    let n := s.cur.arg1.toNat / 2 ^ 8 % 2 ^ 8
    let k := s.cur.arg1.toNat / 2 ^ 16 % 2 ^ 8
    let tCore := s.cur.arg2.toNat
    let tPeriph := s.cur.arg3.toNat
    let tCan := s.cur.arg4.toNat
    let f := fPll fosc p n k
    if 2 ^ 24 ≤ s.cur.arg1.toNat then ∃ t, exec .clkConfigure s = .next t ∧ s.FaultEntry t .assertArg
    else if s.pllstat.state ≠ .disabled ∧ s.pllstat.state ≠ .freeRunning then
      exec .clkConfigure s = .next (s.coded .clkBadState)
    else if clkValid s.params fosc p n k tCore tPeriph tCan = false then
      exec .clkConfigure s = .next (s.coded .clkInvalidTarget)
    else if s.prot.held = true then exec .clkConfigure s = .next (s.coded .guardAlreadyHeld)
    else
      exec .clkConfigure s = .next ({ s with
        prot := ⟨false, false, .fg⟩
        oscfreq := s.cur.arg0
        pllstat := ⟨.prescaleSettling, false, true⟩
        pllcon := ⟨BitVec.ofNat 8 p, BitVec.ofNat 8 n, BitVec.ofNat 8 k⟩
        ccucon := ⟨BitVec.ofNat 4 (domDiv f tCore), BitVec.ofNat 4 (domDiv f tPeriph), BitVec.ofNat 4 (domDiv f tCan)⟩
        fpll := BitVec.ofNat 32 f
        freqCore := BitVec.ofNat 32 (domFreq f tCore)
        freqPeriph := BitVec.ofNat 32 (domFreq f tPeriph)
        freqCan := BitVec.ofNat 32 (domFreq f tCan) }.setCur { s.cur with
          waitKind := .lock, waitNode := 0, waitLim := s.params.pllLockMax, waitCnt := 0, busy := true,
          code := .pending })

/-- R145, R148: `CLK_WAIT_LOCK` starts a wait with the caller's bound unless no dividers are applied; `CLK_REINIT` clears the
clock registers in `Failed` with the guard free. -/
def Obligations.ClkWaitLockAndReinit : Prop :=
  ∀ s : State,
    (exec .clkWaitLock s = .next
      (if s.pllstat.state = .disabled ∨ s.pllstat.state = .freeRunning then s.coded .clkBadState
       else s.setCur { s.cur with
         waitKind := .lock, waitNode := 0, waitLim := s.cur.arg0, waitCnt := 0, busy := true, code := .pending })) ∧
    (exec .clkReinit s = .next
      (if s.pllstat.state ≠ .failed then s.coded .clkBadState
       else if s.prot.held = true then s.coded .guardAlreadyHeld
       else { s with
         prot := ⟨false, false, .fg⟩, pllstat := ⟨.disabled, false, false⟩, oscfreq := 0, pllcon := ⟨0, 0, 0⟩,
         ccucon := ⟨0, 0, 0⟩, fpll := 0, freqCore := 0, freqPeriph := 0, freqCan := 0 }.coded .ok))

/-- R147, R149 with the domain ids of R117: `CLK_FREQ` answers the domain's frequency in every PLL state;
`CLK_DOMAIN_ENABLE` sets the domain's bit in `Locked` unless the domain is unused. -/
def Obligations.DomainCommandsFollowTheDomain : Prop :=
  ∀ s : State,
    let d := s.cur.arg0.toNat
    let freq := if d = 0 then s.freqCore else if d = 1 then s.freqPeriph else s.freqCan
    let enabled : ClkEn :=
      ⟨s.clken.core || decide (d = 0), s.clken.periph || decide (d = 1), s.clken.can || decide (2 ≤ d)⟩
    if 2 + s.params.nNode ≤ d then
      (∃ t, exec .clkFreq s = .next t ∧ s.FaultEntry t .assertArg) ∧
      (∃ t, exec .clkDomainEnable s = .next t ∧ s.FaultEntry t .assertArg)
    else
      exec .clkFreq s = .next (s.setCur { s.cur with res0 := freq, code := .ok }) ∧
      exec .clkDomainEnable s = .next
        (if s.pllstat.state ≠ .locked then s.coded .clkNotLocked
         else if freq = 0 then s.coded .clkInvalidTarget
         else (s.setClken enabled).coded .ok)

/-! ## Bit timing -/

/-- R174 to R178 for the function `bt_compute`: the result is the candidate of least deviation, the first in the order of
R176 among equals, with the widest legal jump width, or the error of R179. -/
def Obligations.BitTimingSearchKeepsTheFirstBest : Prop :=
  ∀ (pr : Params) (clk br sp tol : Nat), pr.wf → 1 ≤ br → pr.nqMin * br ≤ clk → clk ≤ pr.brpMax * pr.nqMax * br →
    ((∀ brp tseg1 : Nat, ¬btCandidate pr clk br brp tseg1) → btCompute pr clk br sp tol = .error .btUnachievable) ∧
    (∀ brp tseg1 : Nat, btBest pr clk br sp brp tseg1 →
      let nq := clk / (brp * br)
      let tseg2 := nq - 1 - tseg1
      if tol * nq < btDev sp nq tseg1 then btCompute pr clk br sp tol = .error .btUnachievable
      else btCompute pr clk br sp tol =
        .ok ⟨brp, tseg1, tseg2, min (min tseg1 tseg2) pr.sjwMax, nq, 1000 * (1 + tseg1) / nq, br⟩)

/-- R179: the operand check, the two frequency errors, and the four results of `BT_COMPUTE`; on an error the `RES` registers
keep their values. -/
def Obligations.BtComputeAnswersTheSearch : Prop :=
  ∀ s : State, s.params.wf →
    let clk := s.cur.arg0.toNat
    let br := s.cur.arg1.toNat
    let sp := s.cur.arg2.toNat
    let tol := s.cur.arg3.toNat
    if br = 0 ∨ 1000 < sp then ∃ t, exec .btCompute s = .next t ∧ s.FaultEntry t .assertArg
    else if clk < s.params.nqMin * br then exec .btCompute s = .next (s.coded .btFreqTooLow)
    else if s.params.brpMax * s.params.nqMax * br < clk then exec .btCompute s = .next (s.coded .btFreqTooHigh)
    else
      ((∀ brp tseg1 : Nat, ¬btCandidate s.params clk br brp tseg1) →
        exec .btCompute s = .next (s.coded .btUnachievable)) ∧
      (∀ brp tseg1 : Nat, btBest s.params clk br sp brp tseg1 →
        let nq := clk / (brp * br)
        let tseg2 := nq - 1 - tseg1
        if tol * nq < absDiff (1000 * (1 + tseg1)) (sp * nq) then exec .btCompute s = .next (s.coded .btUnachievable)
        else
          exec .btCompute s = .next (s.setCur { s.cur with
            res0 := BitVec.ofNat 32
              (brp + 2 ^ 16 * tseg1 + 2 ^ 24 * tseg2 + 2 ^ 28 * min (min tseg1 tseg2) s.params.sjwMax)
            res1 := BitVec.ofNat 32 (1000 * (1 + tseg1) / nq)
            res2 := BitVec.ofNat 32 (clk / (brp * nq))
            res3 := BitVec.ofNat 32 nq
            code := .ok }))

/-- R181 (a), (c), (d), (e) and R180: a timing the calculator returns is within the tolerance, exact, within the hardware
bounds of R173, and no candidate is better; and a search that returns none answers one of the three `BT_*` codes. -/
def Obligations.BitTimingResultsAreSound : Prop :=
  ∀ (pr : Params) (clk br sp tol : Nat),
    (∀ r : BtResult, pr.wf → 1 ≤ br → btCompute pr clk br sp tol = .ok r →
      absDiff (1000 * (1 + r.tseg1)) (sp * r.nq) ≤ tol * r.nq ∧ r.brp * r.nq * br = clk ∧ r.brReal = br ∧
      r.nq = 1 + r.tseg1 + r.tseg2 ∧ timingOk pr r.brp r.tseg1 r.tseg2 r.sjw ∧ r.btr.valid pr ∧
      ∀ brp' tseg1' : Nat, btCandidate pr clk br brp' tseg1' →
        btDev sp r.nq r.tseg1 * (clk / (brp' * br)) ≤ btDev sp (clk / (brp' * br)) tseg1' * r.nq) ∧
    (∀ c : ResultCode, btCompute pr clk br sp tol = .error c →
      c = .btFreqTooLow ∨ c = .btFreqTooHigh ∨ c = .btUnachievable)

/-! ## Mailbox pool -/

/-- R76 with the byte order of R75: masking keeps exactly the payload bytes below `DLC` of a data frame. -/
def Obligations.MaskingKeepsTheFirstBytes : Prop :=
  ∀ (dlc : BitVec 4) (rtr : Bool) (dl dh : Word) (k : Nat), k < 8 →
    payloadByte (maskData dlc rtr dl dh).1 (maskData dlc rtr dl dh).2 k =
      if rtr = true ∨ dlc.toNat ≤ k then 0 else payloadByte dl dh k

/-- R194: an object accepts a frame of its own tag whose identifier agrees with the filter on every masked bit, or lies in
the filter's range, bounds included. -/
def Obligations.AcceptanceFollowsTheFilter : Prop :=
  ∀ (s : State) (n : NodeId) (m : Nat) (ide : Bool) (id : Word),
    let ctl := s.mbxRead n m 0
    let a := s.mbxRead n m 2
    let b := s.mbxRead n m 3
    s.accepts n m ide id = true ↔
      ctl.getLsbD 3 = ide ∧
      (if ctl.getLsbD 2 = true then a.toNat ≤ id.toNat ∧ id.toNat ≤ b.toNat
       else ∀ i < 32, b.getLsbD i = true → id.getLsbD i = a.getLsbD i)

/-- R191: the checks of `MBX_ALLOC` in their order; then the first free object is allocated: its six words, its three bitmap
bits and `RES0`, nothing else. -/
def Obligations.MbxAllocTakesTheFirstFree : Prop :=
  ∀ (n : NodeId) (s : State), s.mbx.wf → s.params.nMbx ≤ 32 →
    let ctl := s.cur.arg0
    let idMost := if ctl.getLsbD 2 = true then 2 ^ 29 - 1 else 2 ^ 11 - 1
    let r := s.node n
    if 8 ≤ ctl.toNat ∨ idMost < s.cur.arg1.toNat ∨ idMost < s.cur.arg2.toNat then
      ∃ t, exec (.mbxAlloc n) s = .next t ∧ s.FaultEntry t .assertArg
    else if r.state ≠ .init then exec (.mbxAlloc n) s = .next (s.coded .cfgNotInInit)
    else if r.nalloc.toNat = 2 ^ s.params.nMbx - 1 then exec (.mbxAlloc n) s = .next (s.coded .poolExhausted)
    else
      ∀ m < s.params.nMbx, r.nalloc.getLsbD m = false → (∀ k < m, r.nalloc.getLsbD k = true) →
        ∃ t, exec (.mbxAlloc n) s = .next t ∧ s.nodeFrame t n ∧
          t.cur = { s.cur with res0 := BitVec.ofNat 32 m, code := .ok } ∧
          t.node n = { r with
            nalloc := (t.node n).nalloc, ndir := (t.node n).ndir, nbusy := (t.node n).nbusy } ∧
          (∀ k < 32,
            (t.node n).nalloc.getLsbD k = (if k = m then true else r.nalloc.getLsbD k) ∧
            (t.node n).ndir.getLsbD k = (if k = m then ctl.getLsbD 0 else r.ndir.getLsbD k) ∧
            (t.node n).nbusy.getLsbD k = (if k = m then false else r.nbusy.getLsbD k)) ∧
          t.mbx.wf ∧ s.sameOutsideObject t n m ∧
          (t.mbxRead n m 0).toNat = 1 + 2 * ctl.toNat ∧ t.mbxRead n m 1 = 0 ∧
          t.mbxRead n m 2 = s.cur.arg1 ∧ t.mbxRead n m 3 = s.cur.arg2 ∧ t.mbxRead n m 4 = 0 ∧ t.mbxRead n m 5 = 0

/-- R192: `MBX_RELEASE_ALL` in `Init` leaves every object of the node's pool all 0 and its bitmaps 0, and touches nothing
else of the node. -/
def Obligations.MbxReleaseAllEmptiesThePool : Prop :=
  ∀ (n : NodeId) (s : State), s.mbx.wf → s.params.nMbx ≤ 32 →
    if (s.node n).state ≠ .init then exec (.mbxReleaseAll n) s = .next (s.coded .cfgNotInInit)
    else
      ∃ t, exec (.mbxReleaseAll n) s = .next t ∧ s.nodeFrame t n ∧ t.cur = { s.cur with code := .ok } ∧
        t.node n = { s.node n with nalloc := 0, ndir := 0, nbusy := 0 } ∧
        t.mbx.wf ∧ s.sameOutsidePool t n ∧ ∀ m < s.params.nMbx, ∀ w < 6, t.mbxRead n m w = 0

/-- R193: `MBX_READ` faults on an index outside the pool or of a free object, and otherwise returns the object's six words
in every node state, draining nothing. -/
def Obligations.MbxReadReturnsTheSixWords : Prop :=
  ∀ (n : NodeId) (s : State),
    let m := s.cur.arg0.toNat
    if s.params.nMbx ≤ m ∨ (s.node n).nalloc.getLsbD m = false then
      ∃ t, exec (.mbxRead n) s = .next t ∧ s.FaultEntry t .assertMbxId
    else
      exec (.mbxRead n) s = .next (s.setCur { s.cur with
        res0 := s.mbxRead n m 0, res1 := s.mbxRead n m 1, res2 := s.mbxRead n m 2, res3 := s.mbxRead n m 3,
        res4 := s.mbxRead n m 4, res5 := s.mbxRead n m 5, code := .ok })

/-! ## CAN node -/

/-- R210: the checks of `NODE_CONFIGURE` in their order; then the node's objects are released, the timing of `bt_compute`
for `FREQ_CAN` is applied through the guard, and reported. -/
def Obligations.NodeConfigureAppliesTheTiming : Prop :=
  ∀ (n : NodeId) (s : State), s.mbx.wf → s.params.nMbx ≤ 32 →
    let br := s.cur.arg0.toNat
    let sp := s.cur.arg1.toNat
    if br = 0 ∨ 1000 < sp then ∃ t, exec (.nodeConfigure n) s = .next t ∧ s.FaultEntry t .assertArg
    else if (s.node n).state ≠ .init then exec (.nodeConfigure n) s = .next (s.coded .cfgNotInInit)
    else if s.pllstat.state ≠ .locked then exec (.nodeConfigure n) s = .next (s.coded .clkNotLocked)
    else
      (∀ c, btCompute s.params s.freqCan.toNat br sp s.cur.arg2.toNat = .error c →
        exec (.nodeConfigure n) s = .next (s.coded c)) ∧
      (∀ r, btCompute s.params s.freqCan.toNat br sp s.cur.arg2.toNat = .ok r →
        if s.prot.held = true then exec (.nodeConfigure n) s = .next (s.coded .guardAlreadyHeld)
        else
          ∃ t, exec (.nodeConfigure n) s = .next t ∧
            s.nodeFrame { t with prot := s.prot } n ∧ t.prot = ⟨false, false, .fg⟩ ∧
            t.node n = { s.node n with
              nalloc := 0, ndir := 0, nbusy := 0, rxLost := false,
              nbtr := ⟨BitVec.ofNat 11 r.brp, BitVec.ofNat 5 r.tseg1, BitVec.ofNat 4 r.tseg2, BitVec.ofNat 3 r.sjw⟩,
              nbitrate := BitVec.ofNat 32 r.brReal, nsp := BitVec.ofNat 10 r.spReal, configured := true } ∧
            t.cur = { s.cur with
              res0 := (t.node n).nbtr.word, res1 := BitVec.ofNat 32 r.spReal, res2 := BitVec.ofNat 32 r.brReal,
              res3 := BitVec.ofNat 32 r.nq, code := .ok } ∧
            t.mbx.wf ∧ s.sameOutsidePool t n ∧ ∀ m < s.params.nMbx, ∀ w < 6, t.mbxRead n m w = 0)

/-- R224: after `NODE_CONFIGURE` has answered `OK`, the applied parameters realise the bit rate exactly and the sample point
within the tolerance. -/
def Obligations.NodeConfigureRoundTrips : Prop :=
  ∀ (n : NodeId) (s t : State), s.params.wf → s.mbx.wf → exec (.nodeConfigure n) s = .next t → t.cur.code = .ok →
    let r := t.node n
    let nq := 1 + r.nbtr.tseg1.toNat + r.nbtr.tseg2.toNat
    r.configured = true ∧ r.nbitrate = s.cur.arg0 ∧ t.freqCan.toNat = r.nbtr.brp.toNat * nq * s.cur.arg0.toNat ∧
    absDiff (1000 * (1 + r.nbtr.tseg1.toNat)) (s.cur.arg1.toNat * nq) ≤ s.cur.arg2.toNat * nq ∧
    r.nsp.toNat = 1000 * (1 + r.nbtr.tseg1.toNat) / nq ∧ r.nbtr.valid t.params

/-- R211, R215, R216: `NODE_START`, `NODE_SLEEP` and `NODE_WAKE` move the node's state from the state each requires, with
the checks of `NODE_START` in their order, and change nothing else. -/
def Obligations.NodeModeCommandsMoveTheState : Prop :=
  ∀ (n : NodeId) (s : State),
    let r := s.node n
    (exec (.nodeStart n) s = .next
      (if r.state ≠ .init then s.coded .cfgNotInInit
       else if r.configured = false ∨ r.nalloc = 0 then s.coded .cfgNotConfigured
       else if s.clken.can = false then s.coded .clkDomainOff
       else (s.setNode n { r with state := .normal }).coded .ok)) ∧
    (exec (.nodeSleep n) s = .next
      (if r.state ≠ .normal then s.coded .nodeBadState
       else (s.setNode n { r with state := .sleep }).coded .ok)) ∧
    (exec (.nodeWake n) s = .next
      (if r.state ≠ .sleep then s.coded .nodeBadState
       else (s.setNode n { r with state := .normal }).coded .ok))

/-- R212: the checks of `NODE_TRANSMIT` in their order; then the idle Transmit object of lowest index takes the frame: its
`MOCTRL` fields, identifier and masked data, its busy bit, and `RES0`, nothing else. -/
def Obligations.NodeTransmitClaimsTheLowestIdle : Prop :=
  ∀ (n : NodeId) (s : State), s.mbx.wf → s.params.nMbx ≤ 32 →
    let h := s.cur.arg0
    let dlc := h.toNat % 16
    let r := s.node n
    let idle (m : Nat) := r.nalloc.getLsbD m = true ∧ r.ndir.getLsbD m = true ∧ r.nbusy.getLsbD m = false
    if 2 ^ 6 ≤ h.toNat then ∃ t, exec (.nodeTransmit n) s = .next t ∧ s.FaultEntry t .assertArg
    else if s.params.dlcMax < dlc then ∃ t, exec (.nodeTransmit n) s = .next t ∧ s.FaultEntry t .assertPayload
    else if (if h.getLsbD 5 = true then 2 ^ 29 - 1 else 2 ^ 11 - 1) < s.cur.arg1.toNat then
      ∃ t, exec (.nodeTransmit n) s = .next t ∧ s.FaultEntry t .assertArg
    else if r.state ≠ .normal then exec (.nodeTransmit n) s = .next (s.coded .txNotNormal)
    else
      ((∀ m < s.params.nMbx, ¬idle m) → exec (.nodeTransmit n) s = .next (s.coded .txNoFreeMailbox)) ∧
      (∀ m < s.params.nMbx, idle m → (∀ k < m, ¬idle k) →
        ∃ t, exec (.nodeTransmit n) s = .next t ∧ s.nodeFrame t n ∧
          t.cur = { s.cur with res0 := BitVec.ofNat 32 m, code := .ok } ∧
          t.node n = { r with nbusy := (t.node n).nbusy } ∧
          (∀ k < 32, (t.node n).nbusy.getLsbD k = (if k = m then true else r.nbusy.getLsbD k)) ∧
          t.mbx.wf ∧ s.sameOutsideObject t n m ∧
          (∀ i < 32, (t.mbxRead n m 0).getLsbD i =
            if i = 4 then true
            else if 8 ≤ i ∧ i < 12 then h.getLsbD (i - 8)
            else if i = 12 then h.getLsbD 4
            else if i = 13 then h.getLsbD 5
            else (s.mbxRead n m 0).getLsbD i) ∧
          t.mbxRead n m 1 = s.cur.arg1 ∧ t.mbxRead n m 2 = s.mbxRead n m 2 ∧ t.mbxRead n m 3 = s.mbxRead n m 3 ∧
          t.mbxRead n m 4 = (maskData (BitVec.ofNat 4 dlc) (h.getLsbD 4) s.cur.arg2 s.cur.arg3).1 ∧
          t.mbxRead n m 5 = (maskData (BitVec.ofNat 4 dlc) (h.getLsbD 4) s.cur.arg2 s.cur.arg3).2)

/-- R213: `NODE_TRY_RECEIVE` returns the pending Receive object of lowest index in every node state and clears only its busy
bit; with none pending it answers `EMPTY` and the `RES` registers keep their values. -/
def Obligations.NodeTryReceiveDrainsTheLowestPending : Prop :=
  ∀ (n : NodeId) (s : State), s.mbx.wf → s.params.nMbx ≤ 32 →
    let r := s.node n
    let pending (m : Nat) := r.nalloc.getLsbD m = true ∧ r.ndir.getLsbD m = false ∧ r.nbusy.getLsbD m = true
    ((∀ m < s.params.nMbx, ¬pending m) → exec (.nodeTryReceive n) s = .next (s.coded .empty)) ∧
    (∀ m < s.params.nMbx, pending m → (∀ k < m, ¬pending k) →
      let ctl := s.mbxRead n m 0
      ∃ t, exec (.nodeTryReceive n) s = .next t ∧ s.nodeFrame t n ∧
        t.cur = { s.cur with
          res0 := BitVec.ofNat 32 (ctl.toNat / 2 ^ 8 % 2 ^ 6 + 2 ^ 8 * m + 2 ^ 31)
          res1 := s.mbxRead n m 1, res2 := s.mbxRead n m 4, res3 := s.mbxRead n m 5, code := .ok } ∧
        t.node n = { r with nbusy := (t.node n).nbusy } ∧
        (∀ k < 32, (t.node n).nbusy.getLsbD k = (if k = m then false else r.nbusy.getLsbD k)) ∧
        t.mbx.wf ∧ s.sameOutsideObject t n m ∧
        (∀ i < 32, (t.mbxRead n m 0).getLsbD i = if i = 4 then false else ctl.getLsbD i) ∧
        ∀ w < 6, w ≠ 0 → t.mbxRead n m w = s.mbxRead n m w)

/-- R217: `NODE_RECOVER` in `BusOff` starts the count of bus-idle occurrences at 0 and the wait with the caller's bound. -/
def Obligations.NodeRecoverStartsTheCount : Prop :=
  ∀ (n : NodeId) (s : State),
    exec (.nodeRecover n) s = .next
      (if (s.node n).state ≠ .busOff ∨ (s.node n).recovering = true then s.coded .nodeBadState
       else (s.setNode n { s.node n with recovering := true, recCnt := 0 }).setCur { s.cur with
         waitKind := .recov, waitNode := n, waitLim := s.cur.arg0, waitCnt := 0, busy := true, code := .pending })

/-! ## Interrupt boundary -/

/-- R251, R252, R253: the three commands on the kinds 0 `TXC`, 1 `RXP`, 2 `BERR`, in every node and PLL state; and R256:
each request output is the enable and the latch together, which by the invariant of R50 is the latch, and beside it the
priority field of `NIE[n]` for its kind is exported. -/
def Obligations.IrqCommandsEnableDisableAcknowledge : Prop :=
  ∀ (n : NodeId) (s : State),
    let r := s.node n
    let k := s.cur.arg0.toNat
    let put (x : KindBits) (v : Bool) : KindBits :=
      if k = 0 then { x with txc := v } else if k = 1 then { x with rxp := v } else { x with berr := v }
    let putPrio (v : BitVec 8) : KindPrios :=
      if k = 0 then { r.prio with txc := v } else if k = 1 then { r.prio with rxp := v } else { r.prio with berr := v }
    (if 2 < k ∨ s.params.prioMax < s.cur.arg1.toNat then
      ∃ t, exec (.irqEnable n) s = .next t ∧ s.FaultEntry t .assertArg
     else exec (.irqEnable n) s = .next ((s.setNode n { r with
       nie := put r.nie true, prio := putPrio (BitVec.ofNat 8 s.cur.arg1.toNat) }).coded .ok)) ∧
    (if 2 < k then
      (∃ t, exec (.irqDisable n) s = .next t ∧ s.FaultEntry t .assertArg) ∧
      (∃ t, exec (.irqAck n) s = .next t ∧ s.FaultEntry t .assertArg)
     else
      exec (.irqDisable n) s = .next ((s.setNode n { r with
        nie := put r.nie false, prio := putPrio 0, nip := put r.nip false }).coded .ok) ∧
      exec (.irqAck n) s = .next ((s.setNode n { r with nip := put r.nip false }).coded .ok)) ∧
    (∀ j : EventKind, s.irqLine n j = (r.nie.get j && r.nip.get j) ∧ (r.LatchInv → s.irqLine n j = r.nip.get j)) ∧
    (s.irqPriority n .txc = r.nieWord.extractLsb' 8 8 ∧ s.irqPriority n .rxp = r.nieWord.extractLsb' 16 8 ∧
      s.irqPriority n .berr = r.nieWord.extractLsb' 24 8)

/-! ## Hardware events -/

/-- R271 and R276: `LOCK_SET` raises only the lock bit of a settling PLL; `IDLE_SEQ` counts one more occurrence of a
recovering node, up to `RECOV_SEQ`, and moves no state. -/
def Obligations.LockSetAndIdleSeqCountOnly : Prop :=
  ∀ (s : State) (n : NodeId) (rest : List Input),
    (s.schedule = .lockSet :: rest → s.pllstat.state = .prescaleSettling → s.pllstat.lockBit = false →
      step s = .next ((s.moved rest).setPll { s.pllstat with lockBit := true })) ∧
    (s.schedule = .idleSeq n :: rest → n.val < s.params.nNode → (s.node n).state = .busOff →
      (s.node n).recovering = true →
      step s = .next ((s.moved rest).setNode n { s.node n with
        recCnt := BitVec.ofNat 8 (min ((s.node n).recCnt.toNat + 1) s.params.recovSeq) }))

/-- R146: the poll step of a `LOCK` wait, its tests in their order: the lock bit is sampled before the bound. -/
def Obligations.LockPollDecidesInOrder : Prop :=
  ∀ (s : State) (b : BankId) (rest : List Input), s.schedule = .waitStep b :: rest → (s.bank b).busy = true →
    (s.bank b).waitKind = .lock →
    let bk := s.bank b
    let s0 := s.moved rest
    let done (c : ResultCode) : Bank := { bk with waitKind := .none, waitNode := 0, busy := false, code := c }
    step s = .next
      (if s.pllstat.state = .locked then s0.setBank b (done .ok)
       else if s.pllstat.state = .failed then s0.setBank b (done .clkLockTimeout)
       else if s.pllstat.state = .prescaleSettling then
         if s.pllstat.lockBit = true then
           (s0.setPll { s.pllstat with state := .locked }).setBank b (done .ok)
         else if bk.waitCnt = bk.waitLim then
           (s0.setPll { s.pllstat with state := .failed }).setBank b (done .clkLockTimeout)
         else s0.setBank b { bk with waitCnt := bk.waitCnt + 1 }
       else s0.setBank b (done .clkBadState))

/-- R218: the poll step of a `RECOV` wait, its tests in their order; a completed recovery returns the node to `Init`, clears
its error counter and frees exactly its busy Transmit objects. -/
def Obligations.RecoveryPollDecidesInOrder : Prop :=
  ∀ (s : State) (b : BankId) (rest : List Input), s.schedule = .waitStep b :: rest → (s.bank b).busy = true →
    (s.bank b).waitKind = .recov → s.mbx.wf → s.params.nMbx ≤ 32 →
    let bk := s.bank b
    let n := bk.waitNode
    let r := s.node n
    let s0 := s.moved rest
    let done (c : ResultCode) : Bank := { bk with waitKind := .none, waitNode := 0, busy := false, code := c }
    if r.state ≠ .busOff then
      step s = .next ((s0.setNode n { r with recovering := false }).setBank b (done .nodeBadState))
    else if s.params.recovSeq ≤ r.recCnt.toNat then
      ∃ t, step s = .next t ∧
        { t with bank0 := s.bank0, bank1 := s.bank1, nodes := s.nodes, mbx := s.mbx } = s0 ∧
        t.bank b = done .ok ∧ t.bank b.other = s.bank b.other ∧ (∀ k : NodeId, k ≠ n → t.node k = s.node k) ∧
        t.node n = { r with state := .init, tec := 0, recovering := false, nbusy := (t.node n).nbusy } ∧
        (∀ m < 32, (t.node n).nbusy.getLsbD m =
          if m < s.params.nMbx ∧ r.ndir.getLsbD m = true then false else r.nbusy.getLsbD m) ∧
        t.mbx.wf ∧ s.sameOutsidePool t n ∧
        (∀ m < s.params.nMbx, ∀ i < 32, (t.mbxRead n m 0).getLsbD i =
          if r.ndir.getLsbD m = true ∧ i = 4 then false else (s.mbxRead n m 0).getLsbD i) ∧
        ∀ m < s.params.nMbx, ∀ w < 6, w ≠ 0 → t.mbxRead n m w = s.mbxRead n m w
    else if bk.waitCnt = bk.waitLim then
      step s = .next ((s0.setNode n { r with recovering := false }).setBank b (done .recoverTimeout))
    else step s = .next (s0.setBank b { bk with waitCnt := bk.waitCnt + 1 })

/-- R273: `TX_DONE` of any busy Transmit object of a node in `Normal` clears its busy flag in both places and latches `TXC`
if enabled; the frame's words stay. -/
def Obligations.TxDoneFreesTheObject : Prop :=
  ∀ (s : State) (n : NodeId) (m : Nat) (rest : List Input), s.schedule = .txDone n m :: rest → s.mbx.wf →
    s.params.nMbx ≤ 32 → n.val < s.params.nNode → m < s.params.nMbx → (s.node n).state = .normal →
    (s.node n).nalloc.getLsbD m = true → (s.node n).ndir.getLsbD m = true → (s.node n).nbusy.getLsbD m = true →
    let r := s.node n
    ∃ t, step s = .next t ∧ s.eventFrame t n rest ∧
      t.node n = { r with nbusy := (t.node n).nbusy, nip := { r.nip with txc := r.nip.txc || r.nie.txc } } ∧
      (∀ k < 32, (t.node n).nbusy.getLsbD k = (if k = m then false else r.nbusy.getLsbD k)) ∧
      t.mbx.wf ∧ s.sameOutsideObject t n m ∧
      (∀ i < 32, (t.mbxRead n m 0).getLsbD i = if i = 4 then false else (s.mbxRead n m 0).getLsbD i) ∧
      ∀ w < 6, w ≠ 0 → t.mbxRead n m w = s.mbxRead n m w

/-- R274 with R195: a well-formed frame for a node in `Normal` goes to the lowest empty accepting Receive object, or is lost
with `RXLOST` set where every accepting one is pending, or is ignored; it wakes a sleeping node and is not stored; in `Init`
and `BusOff` nothing happens. -/
def Obligations.RxFrameStoresWakesOrDrops : Prop :=
  ∀ (s : State) (n : NodeId) (f : CanFrame) (rest : List Input), s.schedule = .rxFrame n f :: rest → s.mbx.wf →
    s.params.nMbx ≤ 32 → n.val < s.params.nNode → f.dlc.toNat ≤ s.params.dlcMax →
    f.id.toNat < (if f.ide = true then 2 ^ 29 else 2 ^ 11) →
    let r := s.node n
    let s0 := s.moved rest
    let receives (m : Nat) := r.nalloc.getLsbD m = true ∧ r.ndir.getLsbD m = false ∧ s.accepts n m f.ide f.id = true
    let takes (m : Nat) := receives m ∧ r.nbusy.getLsbD m = false
    (r.state = .init ∨ r.state = .busOff → step s = .next s0) ∧
    (r.state = .sleep → step s = .next (s0.setNode n { r with state := .normal })) ∧
    (r.state = .normal →
      ((∀ m < s.params.nMbx, ¬receives m) → step s = .next s0) ∧
      ((∃ m < s.params.nMbx, receives m) → (∀ m < s.params.nMbx, ¬takes m) →
        step s = .next (s0.setNode n { r with rxLost := true })) ∧
      (∀ m < s.params.nMbx, takes m → (∀ k < m, ¬takes k) →
        ∃ t, step s = .next t ∧ s.eventFrame t n rest ∧
          t.node n = { r with nbusy := (t.node n).nbusy, nip := { r.nip with rxp := r.nip.rxp || r.nie.rxp } } ∧
          (∀ k < 32, (t.node n).nbusy.getLsbD k = (if k = m then true else r.nbusy.getLsbD k)) ∧
          t.mbx.wf ∧ s.sameOutsideObject t n m ∧
          (∀ i < 32, (t.mbxRead n m 0).getLsbD i =
            if i = 4 then true
            else if 8 ≤ i ∧ i < 12 then f.dlc.getLsbD (i - 8)
            else if i = 12 then f.rtr
            else if i = 13 then f.ide
            else (s.mbxRead n m 0).getLsbD i) ∧
          t.mbxRead n m 1 = f.id ∧ t.mbxRead n m 2 = s.mbxRead n m 2 ∧ t.mbxRead n m 3 = s.mbxRead n m 3 ∧
          t.mbxRead n m 4 = (maskData f.dlc f.rtr f.dl f.dh).1 ∧ t.mbxRead n m 5 = (maskData f.dlc f.rtr f.dl f.dh).2))

/-- R275: `BUS_ERROR` stores the counter, latches `BERR` if enabled, and above the threshold (strictly) moves the node to
`BusOff` with the recovery count at 0; busy objects stay busy. -/
def Obligations.BusErrorReportsTheCounter : Prop :=
  ∀ (s : State) (n : NodeId) (v : Nat) (rest : List Input), s.schedule = .busError n v :: rest →
    n.val < s.params.nNode → v ≤ s.params.tecMax → (s.node n).state = .normal →
    let r := s.node n
    let r1 : NodeRegs :=
      { r with tec := BitVec.ofNat 9 v, nip := { r.nip with berr := r.nip.berr || r.nie.berr } }
    step s = .next ((s.moved rest).setNode n
      (if s.params.busoffTec < v then { r1 with state := .busOff, recCnt := 0 } else r1))

/-- R277, R340: reset leaves every slot of both banks, every register of R57 but the constant `ID`, and every word of every
message object 0, whatever was in progress; and `State.reset` is such a state, its `ID` the default `0x00002004`. The
schedule and the parameters are not state of the block (logs 1, 3). -/
def Obligations.ResetLeavesEveryRegisterZero : Prop :=
  let zeroed (t : State) : Prop :=
    (∀ (b : BankId) (i : Fin 16), t.portRead b i = 0) ∧
    (∀ (id : Nat) (v : Word), t.regView id = some v → id ≠ 0 → v = 0) ∧
    t.regView 0 = some (BitVec.ofNat 32 t.params.nNode ||| BitVec.ofNat 32 t.params.nMbx <<< 8) ∧
    (∀ (n : NodeId) (m w : Nat), t.mbxRead n m w = 0) ∧
    t.pllstat.state = .disabled ∧ (∀ n : NodeId, (t.node n).state = .init) ∧ t.prot = ⟨false, false, .fg⟩
  (zeroed State.reset ∧ State.reset.regView 0 = some 0x00002004) ∧
  ∀ (s : State) (rest : List Input), s.schedule = .reset :: rest →
    ∃ t, step s = .next t ∧ t.schedule = rest ∧ t.params = s.params ∧ zeroed t

/-- R271 to R276, their enabling conditions and parameters: an event whose condition does not hold, whose node, object or
counter value is out of range, or whose frame is ill-formed has no step. The refusals' names are the model's (log 10). -/
def Obligations.EventsNotEnabledAreRefused : Prop :=
  ∀ (s : State) (n : NodeId) (m v : Nat) (f : CanFrame) (b : BankId) (rest : List Input),
    (s.schedule = .lockSet :: rest → ¬(s.pllstat.state = .prescaleSettling ∧ s.pllstat.lockBit = false) →
      step s = .refused (.eventNotEnabled "LOCK_SET")) ∧
    (s.schedule = .waitStep b :: rest → (s.bank b).busy = false → step s = .refused (.eventNotEnabled "WAIT_STEP")) ∧
    (s.schedule = .txDone n m :: rest →
      (s.params.nNode ≤ n.val ∨ s.params.nMbx ≤ m → step s = .refused (.eventParameter "TX_DONE")) ∧
      (n.val < s.params.nNode → m < s.params.nMbx →
        ¬((s.node n).state = .normal ∧ (s.node n).nalloc.getLsbD m = true ∧ (s.node n).ndir.getLsbD m = true ∧
          (s.node n).nbusy.getLsbD m = true) →
        step s = .refused (.eventNotEnabled "TX_DONE"))) ∧
    (s.schedule = .rxFrame n f :: rest →
      (s.params.nNode ≤ n.val → step s = .refused (.eventParameter "RX_FRAME")) ∧
      (n.val < s.params.nNode →
        s.params.dlcMax < f.dlc.toNat ∨ (if f.ide then 2 ^ 29 else 2 ^ 11) ≤ f.id.toNat →
        step s = .refused .illFormedFrame)) ∧
    (s.schedule = .busError n v :: rest →
      (s.params.nNode ≤ n.val ∨ s.params.tecMax < v → step s = .refused (.eventParameter "BUS_ERROR")) ∧
      (n.val < s.params.nNode → v ≤ s.params.tecMax → (s.node n).state ≠ .normal →
        step s = .refused (.eventNotEnabled "BUS_ERROR"))) ∧
    (s.schedule = .idleSeq n :: rest →
      (s.params.nNode ≤ n.val → step s = .refused (.eventParameter "IDLE_SEQ")) ∧
      (n.val < s.params.nNode → ¬((s.node n).state = .busOff ∧ (s.node n).recovering = true) →
        step s = .refused (.eventNotEnabled "IDLE_SEQ")))

/-! ## Faults -/

/-- R304, R305: the fault entry records the cause, the opcode, the node field and the bank, aborts the waits of both banks,
shows `FAULTED`, and changes nothing else. -/
def Obligations.FaultEntryRecordsAndAborts : Prop :=
  ∀ (s : State) (cause : FaultCause), ∃ t, s.raiseFault cause = .next t ∧ s.FaultEntry t cause

/-- R303 and the rows of R301 that a command raises: a legal command faults exactly on the operands listed there, with the
cause listed there. -/
def Obligations.MalformedOperandsAreExactlyTheListed : Prop :=
  ∀ (i : Instr) (s : State), s.faultReg = none →
    let faults (c : FaultCause) : Prop := ∃ t r, exec i s = .next t ∧ t.faultReg = some r ∧ r.cause = c
    let a0 := s.cur.arg0.toNat
    let a1 := s.cur.arg1.toNat
    let a2 := s.cur.arg2.toNat
    let idMost (ide : Bool) : Nat := if ide then 2 ^ 29 - 1 else 2 ^ 11 - 1
    (faults .assertArg ↔
      match i with
      | .clkConfigure => a1 / 2 ^ 24 ≠ 0
      | .clkFreq => 2 + s.params.nNode ≤ a0
      | .clkDomainEnable => 2 + s.params.nNode ≤ a0
      | .btCompute => a1 = 0 ∨ 1000 < a2
      | .nodeConfigure _ => a0 = 0 ∨ 1000 < a1
      | .mbxAlloc _ =>
        a0 / 2 ^ 3 ≠ 0 ∨ idMost (s.cur.arg0.getLsbD 2) < a1 ∨ idMost (s.cur.arg0.getLsbD 2) < a2
      | .nodeTransmit _ =>
        a0 / 2 ^ 6 ≠ 0 ∨ (a0 % 16 ≤ s.params.dlcMax ∧ idMost (s.cur.arg0.getLsbD 5) < a1)
      | .irqEnable _ => 2 < a0 ∨ s.params.prioMax < a1
      | .irqDisable _ => 2 < a0
      | .irqAck _ => 2 < a0
      | .nop | .guardAcq | .guardRel | .regRead | .clkSelect | .clkWaitLock | .clkReinit | .mbxReleaseAll _
      | .mbxRead _ | .nodeStart _ | .nodeTryReceive _ | .nodeBusState _ | .nodeSleep _ | .nodeWake _
      | .nodeRecover _ => False) ∧
    (faults .assertPayload ↔ ∃ n, i = .nodeTransmit n ∧ a0 / 2 ^ 6 = 0 ∧ s.params.dlcMax < a0 % 16) ∧
    (faults .assertMbxId ↔
      ∃ n, i = .mbxRead n ∧ (s.params.nMbx ≤ a0 ∨ (s.node n).nalloc.getLsbD a0 = false)) ∧
    ¬faults .illegalCmd

/-- R322, R306: once latched, a fault stays as recorded until reset; until then no command runs, so the guard, the clock
registers but the lock bit, the protected registers and the node registers no event writes all keep their values; the PLL, a
node or the mailbox memory change only by an event of R271 or R273 to R276; and of the banks only `CMD` and `STAT.CODE`
change, on a refused write, but for an `ARG` register that the host itself writes in that step, which stores "at any time"
(R72). That exception is the model's own reading (log 23, DEDUCED): R322 does not name it. The premise that a latched fault leaves no bank busy is a clause of the invariant `State.Inv`,
which its own statement says every step keeps. -/
def Obligations.FaultLatchStaysUntilReset : Prop :=
  ∀ s t : State, s.faultReg ≠ none → s.FaultInv → ¬s.inputIs .reset → step s = .next t →
    t.faultReg = s.faultReg ∧ t.FaultInv ∧ t.prot = s.prot ∧ s.sameProtected t ∧ t.clken = s.clken ∧
    t.pllstat = { s.pllstat with lockBit := t.pllstat.lockBit } ∧ t.fpll = s.fpll ∧ t.freqCore = s.freqCore ∧
    t.freqPeriph = s.freqPeriph ∧ t.freqCan = s.freqCan ∧
    (∀ n : NodeId,
      t.node n = { s.node n with
        state := (t.node n).state, rxLost := (t.node n).rxLost, tec := (t.node n).tec, recCnt := (t.node n).recCnt,
        nip := (t.node n).nip, nbusy := (t.node n).nbusy }) ∧
    (t.pllstat ≠ s.pllstat → s.inputIs .lockSet) ∧
    (∀ n : NodeId, t.node n ≠ s.node n →
      (∃ m, s.inputIs (.txDone n m)) ∨ (∃ f, s.inputIs (.rxFrame n f)) ∨ (∃ v, s.inputIs (.busError n v)) ∨
        s.inputIs (.idleSeq n)) ∧
    (t.mbx ≠ s.mbx → (∃ n m, s.inputIs (.txDone n m)) ∨ ∃ n f, s.inputIs (.rxFrame n f)) ∧
    (∀ b : BankId,
      (t.bank b = { s.bank b with cmd := (t.bank b).cmd, code := (t.bank b).code } ∨
        ∃ i v, s.nextWrite = some (b, i, v) ∧ i ≠ 0 ∧ t.bank b = (s.storeOperand b i v).bank b) ∧
      ((t.bank b).cmd ≠ (s.bank b).cmd ∨ (t.bank b).code ≠ (s.bank b).code →
        (∃ w, s.nextCommand = some (b, w) ∧ (t.bank b).cmd = w) ∧ (t.bank b).code = .faulted))

/-! ## Rules over every step -/

/-- The mailbox memory stays in its canonical form through every step of every agent. -/
def Obligations.MemoryFormKeptByEveryStep : Prop :=
  ∀ s t : State, s.mbx.wf → step s = .next t → t.mbx.wf

/-- R59: the invariants of the whole state (R27, R31, R32, R38, R50, R51, R54, the PLL, recovery, started-node, counter and
timing clauses), and R196 (a)'s form of `NALLOC`, with the parameter constraints of R9, are kept by every step of every agent. -/
def Obligations.StateInvariantKeptByEveryStep : Prop :=
  ∀ s t : State, s.Inv → step s = .next t → t.Inv

/-- R59: reset meets the invariants: `State.reset`, and the reset state of every parameter set that keeps R9. -/
def Obligations.ResetMeetsTheStateInvariant : Prop :=
  State.reset.Inv ∧ State.reset.mbx.wf ∧ ∀ p : Params, p.wf → (State.resetWith p).Inv

/-- R52, R53: `MOCTRL` has no bit outside its fields; R113 with R191's check: every identifier word is below `2^29`, and
below `2^11` where its tag is 0, `MOID` by `IDE`, `MOFA` and `MOFB` by `FIDE`. Reset has this and every step keeps it. -/
def Obligations.ObjectWordsStayInRange : Prop :=
  (∀ p : Params, (State.resetWith p).ObjectInv) ∧
  ∀ s t : State, s.params.wf → s.mbx.wf → s.ObjectInv → step s = .next t → t.ObjectInv

/-- R135 (b), (c) and R81: a protected register changes only in `CLK_CONFIGURE`, `CLK_REINIT` or `NODE_CONFIGURE` with the
guard free, or at reset; and a held guard stays with its owner until that owner's `GUARD_REL` or reset, while every
`GUARD_ACQ` fails. -/
def Obligations.ProtectedRegistersChangeOnlyUnderTheGuard : Prop :=
  (∀ s t : State, step s = .next t → ¬s.sameProtected t →
    s.inputIs .reset ∨
    (s.prot.held = false ∧ (s.runsNext .clkConfigure ∨ s.runsNext .clkReinit ∨ ∃ n, s.runsNext (.nodeConfigure n)))) ∧
  (∀ s t : State, step s = .next t → s.prot.held = true →
    (s.inputIs .reset ∨ s.nextInstr = some (s.prot.owner, .guardRel) ∨ t.prot = s.prot) ∧
    (∀ b, s.nextInstr = some (b, .guardAcq) → (t.bank b).code = .guardAlreadyHeld))

/-- R150: `PLLSTATE` moves only along its table. `FreeRunning` is passed inside the step of `CLK_CONFIGURE` (R144 (a)), so
`Disabled` is left for `PrescaleSettling` (log 21). -/
def Obligations.PllStateFollowsItsTable : Prop :=
  ∀ s t : State, step s = .next t → t.pllstat.state ≠ s.pllstat.state →
    (s.inputIs .reset ∧ t.pllstat.state = .disabled) ∨
    (s.runsNext .clkConfigure ∧ (s.pllstat.state = .disabled ∨ s.pllstat.state = .freeRunning) ∧
      t.pllstat.state = .prescaleSettling) ∨
    (s.runsNext .clkReinit ∧ s.pllstat.state = .failed ∧ t.pllstat.state = .disabled) ∨
    (∃ b, s.inputIs (.waitStep b) ∧ (s.bank b).waitKind = .lock ∧ s.pllstat.state = .prescaleSettling ∧
      ((s.pllstat.lockBit = true ∧ t.pllstat.state = .locked) ∨
        (s.pllstat.lockBit = false ∧ (s.bank b).waitCnt = (s.bank b).waitLim ∧ t.pllstat.state = .failed)))

/-- R219: `NSTATE[n]` moves only along its table. -/
def Obligations.NodeStateFollowsItsTable : Prop :=
  ∀ (s t : State) (n : NodeId), step s = .next t → (t.node n).state ≠ (s.node n).state →
    let before := (s.node n).state
    let after := (t.node n).state
    (before = .init ∧ after = .normal ∧ s.runsNext (.nodeStart n)) ∨
    (before = .normal ∧ after = .sleep ∧ s.runsNext (.nodeSleep n)) ∨
    (before = .sleep ∧ after = .normal ∧ (s.runsNext (.nodeWake n) ∨ ∃ f, s.inputIs (.rxFrame n f))) ∨
    (before = .normal ∧ after = .busOff ∧ ∃ v, s.inputIs (.busError n v) ∧ s.params.busoffTec < v) ∨
    (before = .busOff ∧ after = .init ∧ s.params.recovSeq ≤ (s.node n).recCnt.toNat ∧
      ∃ b, s.inputIs (.waitStep b) ∧ (s.bank b).waitKind = .recov ∧ (s.bank b).waitNode = n) ∨
    (after = .init ∧ s.inputIs .reset)

/-- R196 (a), (b), (c), each of them the spec's own inference: from an empty pool, which is what a release, a configuration
or reset leaves, `k` successful `MBX_ALLOC`s leave `NALLOC[n] = 2^k - 1`, and `k` is at most `N_MBX`; after `N_MBX` of them
the next answers `POOL_EXHAUSTED`; and a mailbox keeps its direction: `NALLOC[n]` and `NDIR[n]` change only by `MBX_ALLOC`,
`MBX_RELEASE_ALL` or `NODE_CONFIGURE` of the node, in `Init`, or at reset. -/
def Obligations.PoolFillsInOrderAndKeepsDirection : Prop :=
  (∀ (s t : State) (n : NodeId), s.releasesNext n → step s = .next t →
    (t.node n).nalloc = 0 ∧ (t.node n).ndir = 0 ∧ (t.node n).nbusy = 0) ∧
  (∀ (s t : State) (n : NodeId) (k : Nat), s.params.nMbx ≤ 32 → (s.node n).nalloc = 0 → s.AllocRun n k t →
    k ≤ s.params.nMbx ∧ (t.node n).nalloc.toNat = 2 ^ k - 1 ∧
    (k = s.params.nMbx → ¬t.succeedsNext (.mbxAlloc n) ∧
      ∀ u : State, u.params = t.params → u.node n = t.node n → (u.node n).state = .init →
        u.cur.arg0.toNat < 8 →
        (let idMost := if u.cur.arg0.getLsbD 2 = true then 2 ^ 29 - 1 else 2 ^ 11 - 1
         u.cur.arg1.toNat ≤ idMost ∧ u.cur.arg2.toNat ≤ idMost) →
        exec (.mbxAlloc n) u = .next (u.coded .poolExhausted))) ∧
  (∀ (s t : State) (n : NodeId), step s = .next t →
    (t.node n).nalloc ≠ (s.node n).nalloc ∨ (t.node n).ndir ≠ (s.node n).ndir →
    s.inputIs .reset ∨
    ((s.node n).state = .init ∧
      (s.runsNext (.mbxAlloc n) ∨ s.runsNext (.mbxReleaseAll n) ∨ s.runsNext (.nodeConfigure n))))

/-- R55: each single-bit status flag is set and cleared only by what the table of R55 names. The internal acquire and
release of a command are inside its one step, so an acquire shows in no step, and a release only as the clearing of an
`UNLOCKED` that stood alone, which R32 rules out. `FAULT.F` is set only by a fault entry: by a command word written to a
free bank, whose bank, opcode and node the latch records. The premise is R54, a clause of the invariant `State.Inv`, which
its own statement says every step keeps. -/
def Obligations.FlagsChangeOnlyByTheirTable : Prop :=
  ∀ s t : State, s.PoolInv → step s = .next t →
    let reset := s.inputIs .reset
    let faultEntered := s.faultReg = none ∧ t.faultReg ≠ none
    (s.prot.held = false → t.prot.held = true → s.runsNext .guardAcq) ∧
    (s.prot.held = true → t.prot.held = false → s.runsNext .guardRel ∨ reset) ∧
    (s.prot.unlocked = false → t.prot.unlocked = true → s.runsNext .guardAcq) ∧
    (s.prot.unlocked = true → t.prot.unlocked = false →
      s.runsNext .guardRel ∨
        (s.prot.held = false ∧
          (s.runsNext .clkConfigure ∨ s.runsNext .clkReinit ∨ ∃ n, s.runsNext (.nodeConfigure n))) ∨
        reset) ∧
    (s.pllstat.lockBit = false → t.pllstat.lockBit = true → s.inputIs .lockSet) ∧
    (s.pllstat.lockBit = true → t.pllstat.lockBit = false →
      s.runsNext .clkConfigure ∨ s.runsNext .clkReinit ∨ reset) ∧
    (s.pllstat.oscRun = false → t.pllstat.oscRun = true → s.runsNext .clkConfigure) ∧
    (s.pllstat.oscRun = true → t.pllstat.oscRun = false → s.runsNext .clkReinit ∨ reset) ∧
    (∀ d : Domain,
      (s.clken.get d = false → t.clken.get d = true → s.runsNext .clkDomainEnable) ∧
      (s.clken.get d = true → t.clken.get d = false → reset)) ∧
    (s.faultReg = none → t.faultReg ≠ none →
      ∃ b w cause, s.nextCommand = some (b, w) ∧ (s.bank b).busy = false ∧
        t.faultReg = some ⟨cause, w.extractLsb' 0 8, w.extractLsb' 8 4, b⟩) ∧
    (s.faultReg ≠ none → t.faultReg = none → reset) ∧
    (∀ b : BankId,
      ((s.bank b).busy = false → (t.bank b).busy = true →
        s.nextInstr = some (b, .clkConfigure) ∨ s.nextInstr = some (b, .clkWaitLock) ∨
          ∃ n, s.nextInstr = some (b, .nodeRecover n)) ∧
      ((s.bank b).busy = true → (t.bank b).busy = false → s.inputIs (.waitStep b) ∨ faultEntered ∨ reset)) ∧
    (∀ n : NodeId,
      ((s.node n).configured = false → (t.node n).configured = true → s.runsNext (.nodeConfigure n)) ∧
      ((s.node n).configured = true → (t.node n).configured = false → reset) ∧
      ((s.node n).rxLost = false → (t.node n).rxLost = true → ∃ f, s.inputIs (.rxFrame n f)) ∧
      ((s.node n).rxLost = true → (t.node n).rxLost = false → s.runsNext (.nodeConfigure n) ∨ reset) ∧
      ((s.node n).recovering = false → (t.node n).recovering = true → s.runsNext (.nodeRecover n)) ∧
      ((s.node n).recovering = true → (t.node n).recovering = false →
        (∃ b, s.inputIs (.waitStep b) ∧ (s.bank b).waitKind = .recov ∧ (s.bank b).waitNode = n) ∨ faultEntered ∨
          reset) ∧
      (∀ k : EventKind,
        ((s.node n).nie.get k = false → (t.node n).nie.get k = true → s.runsNext (.irqEnable n)) ∧
        ((s.node n).nie.get k = true → (t.node n).nie.get k = false → s.runsNext (.irqDisable n) ∨ reset) ∧
        ((s.node n).nip.get k = false → (t.node n).nip.get k = true →
          (k = .txc ∧ ∃ m, s.inputIs (.txDone n m)) ∨ (k = .rxp ∧ ∃ f, s.inputIs (.rxFrame n f)) ∨
            (k = .berr ∧ ∃ v, s.inputIs (.busError n v))) ∧
        ((s.node n).nip.get k = true → (t.node n).nip.get k = false →
          s.runsNext (.irqAck n) ∨ s.runsNext (.irqDisable n) ∨ reset)) ∧
      (∀ m < 32,
        ((s.node n).nbusy.getLsbD m = false → (t.node n).nbusy.getLsbD m = true →
          s.runsNext (.nodeTransmit n) ∨ ∃ f, s.inputIs (.rxFrame n f)) ∧
        ((s.node n).nbusy.getLsbD m = true → (t.node n).nbusy.getLsbD m = false →
          s.inputIs (.txDone n m) ∨ s.runsNext (.nodeTryReceive n) ∨ s.runsNext (.mbxReleaseAll n) ∨
            s.runsNext (.nodeConfigure n) ∨
            (∃ b, s.inputIs (.waitStep b) ∧ (s.bank b).waitKind = .recov ∧ (s.bank b).waitNode = n ∧
              (s.node n).state = .busOff ∧ s.params.recovSeq ≤ (s.node n).recCnt.toNat ∧
              (s.node n).ndir.getLsbD m = true) ∨ reset)))

/-- R309: a command that ends with an error code (`EMPTY` included) has changed nothing but `STAT.CODE` of its bank. -/
def Obligations.ErrorCodesLeaveTheStateAlone : Prop :=
  ∀ (i : Instr) (s t : State), exec i s = .next t →
    t.cur.code ≠ .ok → t.cur.code ≠ .pending → t.cur.code ≠ .faulted → t = s.coded t.cur.code

/-- R78: the pure reads change only the issuing bank's `RES` and `STAT` where they do not fault, and a port read changes no
register. -/
def Obligations.PureReadsChangeOnlyTheirResults : Prop :=
  (∀ (i : Instr) (s t : State),
    (i = .clkFreq ∨ (∃ n, i = .nodeBusState n) ∨ i = .regRead ∨ (∃ n, i = .mbxRead n) ∨ i = .clkSelect ∨
      i = .btCompute ∨ i = .nop) →
    exec i s = .next t → t.cur.code ≠ .faulted →
    t = s.setCur { s.cur with
      code := t.cur.code, res0 := t.cur.res0, res1 := t.cur.res1, res2 := t.cur.res2, res3 := t.cur.res3,
      res4 := t.cur.res4, res5 := t.cur.res5 }) ∧
  (∀ (s t : State) (b : BankId) (i : Fin 16) (rest : List Input), s.schedule = .portRead b i :: rest →
    step s = .next t → { t with schedule := s.schedule, readData := s.readData } = s)

/-- R43: a command with node field `n` touches, where it does not fault, only node `n` of the nodes and none of the clock
registers; a block-wide command that does not fault touches no node at all. -/
def Obligations.NodeCommandsTouchOnlyTheirNode : Prop :=
  ∀ (i : Instr) (s t : State), exec i s = .next t → t.cur.code ≠ .faulted → s.params.nMbx ≤ 32 →
    (∀ k : NodeId, i.node ≠ some k → s.sameNode t k) ∧ (i.node ≠ none → s.sameClock t)

/-- R21, R24, R25: a command that does not fault leaves the other bank as it was, never writes its own `ARG` or `CMD`, and
writes a `RES` register only when it completes with `OK`. -/
def Obligations.BanksAreSeparate : Prop :=
  ∀ (i : Instr) (s t : State), exec i s = .next t → t.cur.code ≠ .faulted →
    t.issuer = s.issuer ∧ t.bank s.issuer.other = s.bank s.issuer.other ∧
    (t.cur.cmd = s.cur.cmd ∧ t.cur.arg0 = s.cur.arg0 ∧ t.cur.arg1 = s.cur.arg1 ∧ t.cur.arg2 = s.cur.arg2 ∧
      t.cur.arg3 = s.cur.arg3 ∧ t.cur.arg4 = s.cur.arg4) ∧
    (t.cur.code ≠ .ok → t.cur.res0 = s.cur.res0 ∧ t.cur.res1 = s.cur.res1 ∧ t.cur.res2 = s.cur.res2 ∧
      t.cur.res3 = s.cur.res3 ∧ t.cur.res4 = s.cur.res4 ∧ t.cur.res5 = s.cur.res5)

/-! ## Runs -/

/-- R360 with R27: while a wait goes on, whatever else steps in between, it has consumed at most `WAITLIM - WAITCNT` poll
steps, its bound stays, and its counter has risen by exactly their number. So it ends within one more. -/
def Obligations.WaitsEndWithinTheirBound : Prop :=
  ∀ (s t : State) (b : BankId) (k : Nat),
    (s.bank b).busy = true → (s.bank b).waitCnt ≤ (s.bank b).waitLim → Host.Core.run core k s = .next t →
    (∀ j ≤ k, ∀ u, Host.Core.run core j s = .next u → (u.bank b).busy = true) →
    let polls := (s.schedule.take k).count (.waitStep b)
    polls ≤ (s.bank b).waitLim.toNat - (s.bank b).waitCnt.toNat ∧ (t.bank b).waitLim = (s.bank b).waitLim ∧
    (t.bank b).waitCnt.toNat = (s.bank b).waitCnt.toNat + polls

/-- R153 with `LOCK_FAIR` of R278 (a), for the runs in which no other agent steps: once `CLK_CONFIGURE` has started its wait
on bank `b`, a run of that bank's poll steps and at most one `LOCK_SET` and nothing else, with more than
`PLL_LOCK_MAX_CYCLES` polls in it, comes to a state in which the wait has ended, in `Locked` with `OK` exactly when the lock
bit came before, else in `Failed` with `CLK_LOCK_TIMEOUT`. -/
def Obligations.PllConfigurationEndsLockedOrFailed : Prop :=
  ∀ (s t : State) (sched : List Input),
    exec .clkConfigure s = .next t → s.cur.busy = false → t.cur.busy = true → t.schedule = sched →
    (∀ a ∈ sched, a = .lockSet ∨ a = .waitStep s.issuer) → sched.count .lockSet ≤ 1 →
    s.params.pllLockMax.toNat < sched.count (.waitStep s.issuer) →
    ∃ (j : Nat) (u : State), j ≤ sched.length ∧ Host.Core.run core j t = .next u ∧ (u.bank s.issuer).busy = false ∧
      (if .lockSet ∈ sched.take j then u.pllstat.state = .locked ∧ (u.bank s.issuer).code = .ok
       else u.pllstat.state = .failed ∧ (u.bank s.issuer).code = .clkLockTimeout)

/-- R223: a node in `BusOff` refuses every `NODE_TRANSMIT`; and on any run without reset from `BusOff` to a state in which
the node sends again, a recovery has completed into `Init` and, after it, a `NODE_START` of the node was issued in
`Init`. -/
def Obligations.BusOffNodeSendsNothingBeforeRestart : Prop :=
  (∀ (s t : State) (n : NodeId), (s.node n).state = .busOff → exec (.nodeTransmit n) s = .next t →
    t.cur.code = .txNotNormal ∨ t.cur.code = .faulted) ∧
  (∀ (s t : State) (n : NodeId) (k : Nat), (s.node n).state = .busOff → Host.Core.run core k s = .next t →
    Input.reset ∉ s.schedule.take k → (t.node n).state = .normal ∨ (t.node n).state = .sleep →
    ∃ (i j : Nat) (u v : State) (b : BankId), i < j ∧ j < k ∧
      Host.Core.run core i s = .next u ∧ (u.node n).state = .busOff ∧ u.inputIs (.waitStep b) ∧
      (u.bank b).waitKind = .recov ∧ (u.bank b).waitNode = n ∧ s.params.recovSeq ≤ (u.node n).recCnt.toNat ∧
      Host.Core.run core j s = .next v ∧ (v.node n).state = .init ∧ v.runsNext (.nodeStart n))
end

