-- ==== Sys2Proof/Laws/Bits.lean ====
section
/-! SUPPORT. Fields of `MOCTRL` and bits of the bitmaps after each update. -/

namespace Sys2Proof.Machine

/-- Bit `m'` of a bitmap after a write of bit `m`. -/
theorem bitmapGet_bitmapSet (w : Word) (m m' : Nat) (v : Bool) (hm : m < 32) :
    bitmapGet (bitmapSet w m v) m' = if m' = m then v else bitmapGet w m' := by
  unfold bitmapGet bitmapSet
  cases v
  · by_cases h : m' = m
    · subst h; simp
    · by_cases h32 : m' < 32
      · simp [h, h32]
      · simp [h, BitVec.getLsbD_of_ge w m' (by omega)]
  · by_cases h : m' = m
    · subst h; simp [hm]
    · simp [h, Ne.symm h]

@[simp] theorem bitmapGet_zero (m : Nat) : bitmapGet 0#32 m = false := by simp [bitmapGet]

/-- Bits at and above 32 read 0. -/
theorem bitmapGet_ge (w : Word) (m : Nat) (h : 32 ≤ m) : bitmapGet w m = false := BitVec.getLsbD_of_ge w m h

/-- The fields of a freshly allocated `MOCTRL` (R191). -/
theorem moFresh_fields (dir fkind fide : Bool) :
    moAlloc (moFresh dir fkind fide) = true ∧ moDir (moFresh dir fkind fide) = dir ∧
    moFkind (moFresh dir fkind fide) = fkind ∧ moFide (moFresh dir fkind fide) = fide ∧
    moBusy (moFresh dir fkind fide) = false ∧ moDlc (moFresh dir fkind fide) = 0 ∧
    moRtr (moFresh dir fkind fide) = false ∧ moIde (moFresh dir fkind fide) = false := by
  cases dir <;> cases fkind <;> cases fide <;> decide

/-- `MOCTRL.BUSY <- v` writes that bit and no other field. -/
theorem moSetBusy_fields (w : Word) (v : Bool) :
    moBusy (moSetBusy w v) = v ∧ moAlloc (moSetBusy w v) = moAlloc w ∧ moDir (moSetBusy w v) = moDir w ∧
    moFkind (moSetBusy w v) = moFkind w ∧ moFide (moSetBusy w v) = moFide w ∧ moDlc (moSetBusy w v) = moDlc w ∧
    moRtr (moSetBusy w v) = moRtr w ∧ moIde (moSetBusy w v) = moIde w := by
  have hb : ∀ i, (moSetBusy w v).getLsbD i = if i = 4 then v else w.getLsbD i := by
    intro i; exact bitmapGet_bitmapSet w 4 i v (by decide)
  refine ⟨by simp only [moBusy, hb]; rfl, by simp only [moAlloc, hb]; rfl, by simp only [moDir, hb]; rfl,
    by simp only [moFkind, hb]; rfl, by simp only [moFide, hb]; rfl, ?_, by simp only [moRtr, hb]; rfl,
    by simp only [moIde, hb]; rfl⟩
  apply BitVec.eq_of_getLsbD_eq
  intro i hi
  have : 8 + i ≠ 4 := by omega
  simp [moDlc, BitVec.getLsbD_extractLsb', hb, this]

/-- Storing a frame writes `DLC`, `RTR`, `IDE` and `BUSY`, and keeps the rest of `MOCTRL` (R212, R274). -/
theorem moSetFrame_fields (w : Word) (dlc : BitVec 4) (rtr ide : Bool) :
    moBusy (moSetFrame w dlc rtr ide) = true ∧ moDlc (moSetFrame w dlc rtr ide) = dlc ∧
    moRtr (moSetFrame w dlc rtr ide) = rtr ∧ moIde (moSetFrame w dlc rtr ide) = ide ∧
    moAlloc (moSetFrame w dlc rtr ide) = moAlloc w ∧ moDir (moSetFrame w dlc rtr ide) = moDir w ∧
    moFkind (moSetFrame w dlc rtr ide) = moFkind w ∧ moFide (moSetFrame w dlc rtr ide) = moFide w := by
  unfold moSetFrame
  refine ⟨?_, ?_, ?_, ?_, ?_, ?_, ?_, ?_⟩
  · cases rtr <;> cases ide <;> simp [moBusy, bitW, fieldW]
  · apply BitVec.eq_of_getLsbD_eq
    intro i hi
    have : i = 0 ∨ i = 1 ∨ i = 2 ∨ i = 3 := by omega
    rcases this with rfl | rfl | rfl | rfl <;> cases rtr <;> cases ide <;>
      simp [moDlc, bitW, fieldW]
  · cases rtr <;> cases ide <;> simp [moRtr, bitW, fieldW]
  · cases rtr <;> cases ide <;> simp [moIde, bitW, fieldW]
  · cases rtr <;> cases ide <;> simp [moAlloc, bitW, fieldW]
  · cases rtr <;> cases ide <;> simp [moDir, bitW, fieldW]
  · cases rtr <;> cases ide <;> simp [moFkind, bitW, fieldW]
  · cases rtr <;> cases ide <;> simp [moFide, bitW, fieldW]

/-- The bit of one kind after a write of another. -/
theorem KindBits.get_set (x : KindBits) (k j : EventKind) (v : Bool) :
    (x.set k v).get j = if j = k then v else x.get j := by
  cases k <;> cases j <;> rfl

theorem KindPrios.get_set (x : KindPrios) (k j : EventKind) (v : BitVec 8) :
    (x.set k v).get j = if j = k then v else x.get j := by
  cases k <;> cases j <;> rfl

/-- The latch rule of R50 as one register update, for each kind. -/
theorem NodeRegs.latch_txc (r : NodeRegs) :
    r.latch .txc = { r with nip := { r.nip with txc := r.nip.txc || r.nie.txc } } := by
  obtain ⟨_, _, _, _, _, _, _, _, _, ⟨t, _, _⟩, _, _, _, _, _⟩ := r
  cases t <;> simp [NodeRegs.latch, KindBits.get, KindBits.set]

/-- The latch rule of R50 as one register update, for each kind. -/
theorem NodeRegs.latch_rxp (r : NodeRegs) :
    r.latch .rxp = { r with nip := { r.nip with rxp := r.nip.rxp || r.nie.rxp } } := by
  obtain ⟨_, _, _, _, _, _, _, _, _, ⟨_, t, _⟩, _, _, _, _, _⟩ := r
  cases t <;> simp [NodeRegs.latch, KindBits.get, KindBits.set]

/-- The latch rule of R50 as one register update, for each kind. -/
theorem NodeRegs.latch_berr (r : NodeRegs) :
    r.latch .berr = { r with nip := { r.nip with berr := r.nip.berr || r.nie.berr } } := by
  obtain ⟨_, _, _, _, _, _, _, _, _, ⟨_, _, t⟩, _, _, _, _, _⟩ := r
  cases t <;> simp [NodeRegs.latch, KindBits.get, KindBits.set]

end Sys2Proof.Machine
end

