-- ==== Sys2Proof/Laws/State.lean ====
section
/-! SUPPORT. One lemma per field per update of State, so that no later proof unfolds a record update; and what banks and
nodes read after an update. -/

namespace Sys2Proof.Machine

variable (s t : State) (b c : BankId) (bk : Bank) (n m : NodeId) (r : NodeRegs)

@[simp] theorem State.setBank_prot : (s.setBank b bk).prot = s.prot := by cases b <;> rfl
@[simp] theorem State.setBank_faultReg : (s.setBank b bk).faultReg = s.faultReg := by cases b <;> rfl
@[simp] theorem State.setBank_pllstat : (s.setBank b bk).pllstat = s.pllstat := by cases b <;> rfl
@[simp] theorem State.setBank_oscfreq : (s.setBank b bk).oscfreq = s.oscfreq := by cases b <;> rfl
@[simp] theorem State.setBank_pllcon : (s.setBank b bk).pllcon = s.pllcon := by cases b <;> rfl
@[simp] theorem State.setBank_ccucon : (s.setBank b bk).ccucon = s.ccucon := by cases b <;> rfl
@[simp] theorem State.setBank_clken : (s.setBank b bk).clken = s.clken := by cases b <;> rfl
@[simp] theorem State.setBank_fpll : (s.setBank b bk).fpll = s.fpll := by cases b <;> rfl
@[simp] theorem State.setBank_freqCore : (s.setBank b bk).freqCore = s.freqCore := by cases b <;> rfl
@[simp] theorem State.setBank_freqPeriph : (s.setBank b bk).freqPeriph = s.freqPeriph := by cases b <;> rfl
@[simp] theorem State.setBank_freqCan : (s.setBank b bk).freqCan = s.freqCan := by cases b <;> rfl
@[simp] theorem State.setBank_nodes : (s.setBank b bk).nodes = s.nodes := by cases b <;> rfl
@[simp] theorem State.setBank_mbx : (s.setBank b bk).mbx = s.mbx := by cases b <;> rfl
@[simp] theorem State.setBank_params : (s.setBank b bk).params = s.params := by cases b <;> rfl
@[simp] theorem State.setBank_schedule : (s.setBank b bk).schedule = s.schedule := by cases b <;> rfl
@[simp] theorem State.setBank_issuer : (s.setBank b bk).issuer = s.issuer := by cases b <;> rfl
@[simp] theorem State.setBank_readData : (s.setBank b bk).readData = s.readData := by cases b <;> rfl
@[simp] theorem State.setBank_ignoredCmd : (s.setBank b bk).ignoredCmd = s.ignoredCmd := by cases b <;> rfl

@[simp] theorem State.setCur_prot : (s.setCur bk).prot = s.prot := State.setBank_prot s s.issuer bk
@[simp] theorem State.setCur_faultReg : (s.setCur bk).faultReg = s.faultReg := State.setBank_faultReg s s.issuer bk
@[simp] theorem State.setCur_pllstat : (s.setCur bk).pllstat = s.pllstat := State.setBank_pllstat s s.issuer bk
@[simp] theorem State.setCur_oscfreq : (s.setCur bk).oscfreq = s.oscfreq := State.setBank_oscfreq s s.issuer bk
@[simp] theorem State.setCur_pllcon : (s.setCur bk).pllcon = s.pllcon := State.setBank_pllcon s s.issuer bk
@[simp] theorem State.setCur_ccucon : (s.setCur bk).ccucon = s.ccucon := State.setBank_ccucon s s.issuer bk
@[simp] theorem State.setCur_clken : (s.setCur bk).clken = s.clken := State.setBank_clken s s.issuer bk
@[simp] theorem State.setCur_fpll : (s.setCur bk).fpll = s.fpll := State.setBank_fpll s s.issuer bk
@[simp] theorem State.setCur_freqCore : (s.setCur bk).freqCore = s.freqCore := State.setBank_freqCore s s.issuer bk
@[simp] theorem State.setCur_freqPeriph : (s.setCur bk).freqPeriph = s.freqPeriph := State.setBank_freqPeriph s s.issuer bk
@[simp] theorem State.setCur_freqCan : (s.setCur bk).freqCan = s.freqCan := State.setBank_freqCan s s.issuer bk
@[simp] theorem State.setCur_nodes : (s.setCur bk).nodes = s.nodes := State.setBank_nodes s s.issuer bk
@[simp] theorem State.setCur_mbx : (s.setCur bk).mbx = s.mbx := State.setBank_mbx s s.issuer bk
@[simp] theorem State.setCur_params : (s.setCur bk).params = s.params := State.setBank_params s s.issuer bk
@[simp] theorem State.setCur_schedule : (s.setCur bk).schedule = s.schedule := State.setBank_schedule s s.issuer bk
@[simp] theorem State.setCur_issuer : (s.setCur bk).issuer = s.issuer := State.setBank_issuer s s.issuer bk
@[simp] theorem State.setCur_readData : (s.setCur bk).readData = s.readData := State.setBank_readData s s.issuer bk
@[simp] theorem State.setCur_ignoredCmd : (s.setCur bk).ignoredCmd = s.ignoredCmd := State.setBank_ignoredCmd s s.issuer bk

@[simp] theorem State.setNode_bank0 : (s.setNode n r).bank0 = s.bank0 := by cases s; rfl
@[simp] theorem State.setNode_bank1 : (s.setNode n r).bank1 = s.bank1 := by cases s; rfl
@[simp] theorem State.setNode_prot : (s.setNode n r).prot = s.prot := by cases s; rfl
@[simp] theorem State.setNode_faultReg : (s.setNode n r).faultReg = s.faultReg := by cases s; rfl
@[simp] theorem State.setNode_pllstat : (s.setNode n r).pllstat = s.pllstat := by cases s; rfl
@[simp] theorem State.setNode_oscfreq : (s.setNode n r).oscfreq = s.oscfreq := by cases s; rfl
@[simp] theorem State.setNode_pllcon : (s.setNode n r).pllcon = s.pllcon := by cases s; rfl
@[simp] theorem State.setNode_ccucon : (s.setNode n r).ccucon = s.ccucon := by cases s; rfl
@[simp] theorem State.setNode_clken : (s.setNode n r).clken = s.clken := by cases s; rfl
@[simp] theorem State.setNode_fpll : (s.setNode n r).fpll = s.fpll := by cases s; rfl
@[simp] theorem State.setNode_freqCore : (s.setNode n r).freqCore = s.freqCore := by cases s; rfl
@[simp] theorem State.setNode_freqPeriph : (s.setNode n r).freqPeriph = s.freqPeriph := by cases s; rfl
@[simp] theorem State.setNode_freqCan : (s.setNode n r).freqCan = s.freqCan := by cases s; rfl
@[simp] theorem State.setNode_mbx : (s.setNode n r).mbx = s.mbx := by cases s; rfl
@[simp] theorem State.setNode_params : (s.setNode n r).params = s.params := by cases s; rfl
@[simp] theorem State.setNode_schedule : (s.setNode n r).schedule = s.schedule := by cases s; rfl
@[simp] theorem State.setNode_issuer : (s.setNode n r).issuer = s.issuer := by cases s; rfl
@[simp] theorem State.setNode_readData : (s.setNode n r).readData = s.readData := by cases s; rfl
@[simp] theorem State.setNode_ignoredCmd : (s.setNode n r).ignoredCmd = s.ignoredCmd := by cases s; rfl

@[simp] theorem State.mbxWrite_bank0 (k w : Nat) (v : Word) : (s.mbxWrite n k w v).bank0 = s.bank0 := by cases s; rfl
@[simp] theorem State.mbxWrite_bank1 (k w : Nat) (v : Word) : (s.mbxWrite n k w v).bank1 = s.bank1 := by cases s; rfl
@[simp] theorem State.mbxWrite_prot (k w : Nat) (v : Word) : (s.mbxWrite n k w v).prot = s.prot := by cases s; rfl
@[simp] theorem State.mbxWrite_faultReg (k w : Nat) (v : Word) : (s.mbxWrite n k w v).faultReg = s.faultReg := by cases s; rfl
@[simp] theorem State.mbxWrite_pllstat (k w : Nat) (v : Word) : (s.mbxWrite n k w v).pllstat = s.pllstat := by cases s; rfl
@[simp] theorem State.mbxWrite_oscfreq (k w : Nat) (v : Word) : (s.mbxWrite n k w v).oscfreq = s.oscfreq := by cases s; rfl
@[simp] theorem State.mbxWrite_pllcon (k w : Nat) (v : Word) : (s.mbxWrite n k w v).pllcon = s.pllcon := by cases s; rfl
@[simp] theorem State.mbxWrite_ccucon (k w : Nat) (v : Word) : (s.mbxWrite n k w v).ccucon = s.ccucon := by cases s; rfl
@[simp] theorem State.mbxWrite_clken (k w : Nat) (v : Word) : (s.mbxWrite n k w v).clken = s.clken := by cases s; rfl
@[simp] theorem State.mbxWrite_fpll (k w : Nat) (v : Word) : (s.mbxWrite n k w v).fpll = s.fpll := by cases s; rfl
@[simp] theorem State.mbxWrite_freqCore (k w : Nat) (v : Word) : (s.mbxWrite n k w v).freqCore = s.freqCore := by cases s; rfl
@[simp] theorem State.mbxWrite_freqPeriph (k w : Nat) (v : Word) : (s.mbxWrite n k w v).freqPeriph = s.freqPeriph := by cases s; rfl
@[simp] theorem State.mbxWrite_freqCan (k w : Nat) (v : Word) : (s.mbxWrite n k w v).freqCan = s.freqCan := by cases s; rfl
@[simp] theorem State.mbxWrite_nodes (k w : Nat) (v : Word) : (s.mbxWrite n k w v).nodes = s.nodes := by cases s; rfl
@[simp] theorem State.mbxWrite_params (k w : Nat) (v : Word) : (s.mbxWrite n k w v).params = s.params := by cases s; rfl
@[simp] theorem State.mbxWrite_schedule (k w : Nat) (v : Word) : (s.mbxWrite n k w v).schedule = s.schedule := by cases s; rfl
@[simp] theorem State.mbxWrite_issuer (k w : Nat) (v : Word) : (s.mbxWrite n k w v).issuer = s.issuer := by cases s; rfl
@[simp] theorem State.mbxWrite_readData (k w : Nat) (v : Word) : (s.mbxWrite n k w v).readData = s.readData := by cases s; rfl
@[simp] theorem State.mbxWrite_ignoredCmd (k w : Nat) (v : Word) : (s.mbxWrite n k w v).ignoredCmd = s.ignoredCmd := by cases s; rfl

/-- A bank is read from its own field. -/
@[simp] theorem State.bank_fg : s.bank .fg = s.bank0 := by cases s; rfl

@[simp] theorem State.bank_irq : s.bank .irq = s.bank1 := by cases s; rfl

/-- A bank read depends on the two bank fields only. -/
theorem State.bank_congr {s t : State} (h0 : t.bank0 = s.bank0) (h1 : t.bank1 = s.bank1) : t.bank b = s.bank b := by
  cases b <;> simpa

/-- A node read depends on the node field only. -/
theorem State.node_congr {s t : State} (h : t.nodes = s.nodes) : t.node n = s.node n := by
  simp [State.node, h]

/-- A mailbox read depends on the memory only. -/
theorem State.mbxRead_congr {s t : State} (h : t.mbx = s.mbx) (k w : Nat) : t.mbxRead n k w = s.mbxRead n k w := by
  simp [State.mbxRead, h]

@[simp] theorem State.bank_setBank_same : (s.setBank b bk).bank b = bk := by cases b <;> rfl

theorem State.bank_setBank_other (h : c ≠ b) : (s.setBank b bk).bank c = s.bank c := by
  cases b <;> cases c <;> first | rfl | exact absurd rfl h

theorem State.bank_setBank : (s.setBank b bk).bank c = if c = b then bk else s.bank c := by
  cases b <;> cases c <;> rfl

@[simp] theorem State.setBank_bank_self : s.setBank b (s.bank b) = s := by cases b <;> rfl

@[simp] theorem State.setBank_setBank (bk' : Bank) : (s.setBank b bk).setBank b bk' = s.setBank b bk' := by
  cases b <;> rfl

@[simp] theorem State.cur_setCur : (s.setCur bk).cur = bk := by simp [State.cur, State.setCur]

@[simp] theorem State.setCur_setCur (bk' : Bank) : (s.setCur bk).setCur bk' = s.setCur bk' := by simp [State.setCur]

@[simp] theorem State.node_setBank : (s.setBank b bk).node n = s.node n := State.node_congr n (by simp)

@[simp] theorem State.node_setCur : (s.setCur bk).node n = s.node n := State.node_congr n (by simp)

@[simp] theorem State.node_setNode_same : (s.setNode n r).node n = r := by
  simp [State.node, State.setNode]

theorem State.node_setNode : (s.setNode n r).node m = if m = n then r else s.node m := by
  simp only [State.node, State.setNode, Vector.getElem_set, Fin.ext_iff, eq_comm]

theorem State.node_setNode_other (h : m ≠ n) : (s.setNode n r).node m = s.node m := by
  simp [State.node_setNode, h]

@[simp] theorem State.node_mbxWrite (k w : Nat) (v : Word) : (s.mbxWrite n k w v).node m = s.node m := by cases s; rfl

@[simp] theorem State.bank_setNode : (s.setNode n r).bank b = s.bank b := State.bank_congr b rfl rfl

@[simp] theorem State.cur_setNode : (s.setNode n r).cur = s.cur := by simp [State.cur]

@[simp] theorem State.bank_mbxWrite (k w : Nat) (v : Word) : (s.mbxWrite n k w v).bank b = s.bank b :=
  State.bank_congr b rfl rfl

@[simp] theorem State.cur_mbxWrite (k w : Nat) (v : Word) : (s.mbxWrite n k w v).cur = s.cur := by simp [State.cur]

@[simp] theorem State.mbxRead_setBank (k w : Nat) : (s.setBank b bk).mbxRead n k w = s.mbxRead n k w :=
  State.mbxRead_congr n (by simp) k w

@[simp] theorem State.mbxRead_setCur (k w : Nat) : (s.setCur bk).mbxRead n k w = s.mbxRead n k w :=
  State.mbxRead_congr n (by simp) k w

@[simp] theorem State.mbxRead_setNode (k w : Nat) : (s.setNode m r).mbxRead n k w = s.mbxRead n k w := by cases s; rfl

@[simp] theorem State.setProt_bank0 (p : Prot) : (s.setProt p).bank0 = s.bank0 := by cases s; rfl
@[simp] theorem State.setProt_bank1 (p : Prot) : (s.setProt p).bank1 = s.bank1 := by cases s; rfl
@[simp] theorem State.setProt_prot (p : Prot) : (s.setProt p).prot = p := by cases s; rfl
@[simp] theorem State.setProt_faultReg (p : Prot) : (s.setProt p).faultReg = s.faultReg := by cases s; rfl
@[simp] theorem State.setProt_pllstat (p : Prot) : (s.setProt p).pllstat = s.pllstat := by cases s; rfl
@[simp] theorem State.setProt_oscfreq (p : Prot) : (s.setProt p).oscfreq = s.oscfreq := by cases s; rfl
@[simp] theorem State.setProt_pllcon (p : Prot) : (s.setProt p).pllcon = s.pllcon := by cases s; rfl
@[simp] theorem State.setProt_ccucon (p : Prot) : (s.setProt p).ccucon = s.ccucon := by cases s; rfl
@[simp] theorem State.setProt_clken (p : Prot) : (s.setProt p).clken = s.clken := by cases s; rfl
@[simp] theorem State.setProt_fpll (p : Prot) : (s.setProt p).fpll = s.fpll := by cases s; rfl
@[simp] theorem State.setProt_freqCore (p : Prot) : (s.setProt p).freqCore = s.freqCore := by cases s; rfl
@[simp] theorem State.setProt_freqPeriph (p : Prot) : (s.setProt p).freqPeriph = s.freqPeriph := by cases s; rfl
@[simp] theorem State.setProt_freqCan (p : Prot) : (s.setProt p).freqCan = s.freqCan := by cases s; rfl
@[simp] theorem State.setProt_nodes (p : Prot) : (s.setProt p).nodes = s.nodes := by cases s; rfl
@[simp] theorem State.setProt_mbx (p : Prot) : (s.setProt p).mbx = s.mbx := by cases s; rfl
@[simp] theorem State.setProt_params (p : Prot) : (s.setProt p).params = s.params := by cases s; rfl
@[simp] theorem State.setProt_schedule (p : Prot) : (s.setProt p).schedule = s.schedule := by cases s; rfl
@[simp] theorem State.setProt_issuer (p : Prot) : (s.setProt p).issuer = s.issuer := by cases s; rfl
@[simp] theorem State.setProt_readData (p : Prot) : (s.setProt p).readData = s.readData := by cases s; rfl
@[simp] theorem State.setProt_ignoredCmd (p : Prot) : (s.setProt p).ignoredCmd = s.ignoredCmd := by cases s; rfl
@[simp] theorem State.bank_setProt (p : Prot) : (s.setProt p).bank b = s.bank b := by cases b <;> rfl
@[simp] theorem State.cur_setProt (p : Prot) : (s.setProt p).cur = s.cur := State.bank_setProt s s.issuer p
@[simp] theorem State.node_setProt (p : Prot) : (s.setProt p).node n = s.node n := by cases s; rfl
@[simp] theorem State.mbxRead_setProt (p : Prot) (k w : Nat) : (s.setProt p).mbxRead n k w = s.mbxRead n k w := by cases s; rfl

@[simp] theorem State.setFault_bank0 (f : FaultRecord) : (s.setFault f).bank0 = s.bank0 := by cases s; rfl
@[simp] theorem State.setFault_bank1 (f : FaultRecord) : (s.setFault f).bank1 = s.bank1 := by cases s; rfl
@[simp] theorem State.setFault_prot (f : FaultRecord) : (s.setFault f).prot = s.prot := by cases s; rfl
@[simp] theorem State.setFault_faultReg (f : FaultRecord) : (s.setFault f).faultReg = some f := by cases s; rfl
@[simp] theorem State.setFault_pllstat (f : FaultRecord) : (s.setFault f).pllstat = s.pllstat := by cases s; rfl
@[simp] theorem State.setFault_oscfreq (f : FaultRecord) : (s.setFault f).oscfreq = s.oscfreq := by cases s; rfl
@[simp] theorem State.setFault_pllcon (f : FaultRecord) : (s.setFault f).pllcon = s.pllcon := by cases s; rfl
@[simp] theorem State.setFault_ccucon (f : FaultRecord) : (s.setFault f).ccucon = s.ccucon := by cases s; rfl
@[simp] theorem State.setFault_clken (f : FaultRecord) : (s.setFault f).clken = s.clken := by cases s; rfl
@[simp] theorem State.setFault_fpll (f : FaultRecord) : (s.setFault f).fpll = s.fpll := by cases s; rfl
@[simp] theorem State.setFault_freqCore (f : FaultRecord) : (s.setFault f).freqCore = s.freqCore := by cases s; rfl
@[simp] theorem State.setFault_freqPeriph (f : FaultRecord) : (s.setFault f).freqPeriph = s.freqPeriph := by cases s; rfl
@[simp] theorem State.setFault_freqCan (f : FaultRecord) : (s.setFault f).freqCan = s.freqCan := by cases s; rfl
@[simp] theorem State.setFault_nodes (f : FaultRecord) : (s.setFault f).nodes = s.nodes := by cases s; rfl
@[simp] theorem State.setFault_mbx (f : FaultRecord) : (s.setFault f).mbx = s.mbx := by cases s; rfl
@[simp] theorem State.setFault_params (f : FaultRecord) : (s.setFault f).params = s.params := by cases s; rfl
@[simp] theorem State.setFault_schedule (f : FaultRecord) : (s.setFault f).schedule = s.schedule := by cases s; rfl
@[simp] theorem State.setFault_issuer (f : FaultRecord) : (s.setFault f).issuer = s.issuer := by cases s; rfl
@[simp] theorem State.setFault_readData (f : FaultRecord) : (s.setFault f).readData = s.readData := by cases s; rfl
@[simp] theorem State.setFault_ignoredCmd (f : FaultRecord) : (s.setFault f).ignoredCmd = s.ignoredCmd := by cases s; rfl
@[simp] theorem State.bank_setFault (f : FaultRecord) : (s.setFault f).bank b = s.bank b := by cases b <;> rfl
@[simp] theorem State.cur_setFault (f : FaultRecord) : (s.setFault f).cur = s.cur := State.bank_setFault s s.issuer f
@[simp] theorem State.node_setFault (f : FaultRecord) : (s.setFault f).node n = s.node n := by cases s; rfl
@[simp] theorem State.mbxRead_setFault (f : FaultRecord) (k w : Nat) : (s.setFault f).mbxRead n k w = s.mbxRead n k w := by cases s; rfl

@[simp] theorem State.setPll_bank0 (p : PllStat) : (s.setPll p).bank0 = s.bank0 := by cases s; rfl
@[simp] theorem State.setPll_bank1 (p : PllStat) : (s.setPll p).bank1 = s.bank1 := by cases s; rfl
@[simp] theorem State.setPll_prot (p : PllStat) : (s.setPll p).prot = s.prot := by cases s; rfl
@[simp] theorem State.setPll_faultReg (p : PllStat) : (s.setPll p).faultReg = s.faultReg := by cases s; rfl
@[simp] theorem State.setPll_pllstat (p : PllStat) : (s.setPll p).pllstat = p := by cases s; rfl
@[simp] theorem State.setPll_oscfreq (p : PllStat) : (s.setPll p).oscfreq = s.oscfreq := by cases s; rfl
@[simp] theorem State.setPll_pllcon (p : PllStat) : (s.setPll p).pllcon = s.pllcon := by cases s; rfl
@[simp] theorem State.setPll_ccucon (p : PllStat) : (s.setPll p).ccucon = s.ccucon := by cases s; rfl
@[simp] theorem State.setPll_clken (p : PllStat) : (s.setPll p).clken = s.clken := by cases s; rfl
@[simp] theorem State.setPll_fpll (p : PllStat) : (s.setPll p).fpll = s.fpll := by cases s; rfl
@[simp] theorem State.setPll_freqCore (p : PllStat) : (s.setPll p).freqCore = s.freqCore := by cases s; rfl
@[simp] theorem State.setPll_freqPeriph (p : PllStat) : (s.setPll p).freqPeriph = s.freqPeriph := by cases s; rfl
@[simp] theorem State.setPll_freqCan (p : PllStat) : (s.setPll p).freqCan = s.freqCan := by cases s; rfl
@[simp] theorem State.setPll_nodes (p : PllStat) : (s.setPll p).nodes = s.nodes := by cases s; rfl
@[simp] theorem State.setPll_mbx (p : PllStat) : (s.setPll p).mbx = s.mbx := by cases s; rfl
@[simp] theorem State.setPll_params (p : PllStat) : (s.setPll p).params = s.params := by cases s; rfl
@[simp] theorem State.setPll_schedule (p : PllStat) : (s.setPll p).schedule = s.schedule := by cases s; rfl
@[simp] theorem State.setPll_issuer (p : PllStat) : (s.setPll p).issuer = s.issuer := by cases s; rfl
@[simp] theorem State.setPll_readData (p : PllStat) : (s.setPll p).readData = s.readData := by cases s; rfl
@[simp] theorem State.setPll_ignoredCmd (p : PllStat) : (s.setPll p).ignoredCmd = s.ignoredCmd := by cases s; rfl
@[simp] theorem State.bank_setPll (p : PllStat) : (s.setPll p).bank b = s.bank b := by cases b <;> rfl
@[simp] theorem State.cur_setPll (p : PllStat) : (s.setPll p).cur = s.cur := State.bank_setPll s s.issuer p
@[simp] theorem State.node_setPll (p : PllStat) : (s.setPll p).node n = s.node n := by cases s; rfl
@[simp] theorem State.mbxRead_setPll (p : PllStat) (k w : Nat) : (s.setPll p).mbxRead n k w = s.mbxRead n k w := by cases s; rfl

@[simp] theorem State.setClock_bank0 (o : Word) (p : PllCon) (q : CcuCon) : (s.setClock o p q).bank0 = s.bank0 := by cases s; rfl
@[simp] theorem State.setClock_bank1 (o : Word) (p : PllCon) (q : CcuCon) : (s.setClock o p q).bank1 = s.bank1 := by cases s; rfl
@[simp] theorem State.setClock_prot (o : Word) (p : PllCon) (q : CcuCon) : (s.setClock o p q).prot = s.prot := by cases s; rfl
@[simp] theorem State.setClock_faultReg (o : Word) (p : PllCon) (q : CcuCon) : (s.setClock o p q).faultReg = s.faultReg := by cases s; rfl
@[simp] theorem State.setClock_pllstat (o : Word) (p : PllCon) (q : CcuCon) : (s.setClock o p q).pllstat = s.pllstat := by cases s; rfl
@[simp] theorem State.setClock_oscfreq (o : Word) (p : PllCon) (q : CcuCon) : (s.setClock o p q).oscfreq = o := by cases s; rfl
@[simp] theorem State.setClock_pllcon (o : Word) (p : PllCon) (q : CcuCon) : (s.setClock o p q).pllcon = p := by cases s; rfl
@[simp] theorem State.setClock_ccucon (o : Word) (p : PllCon) (q : CcuCon) : (s.setClock o p q).ccucon = q := by cases s; rfl
@[simp] theorem State.setClock_clken (o : Word) (p : PllCon) (q : CcuCon) : (s.setClock o p q).clken = s.clken := by cases s; rfl
@[simp] theorem State.setClock_fpll (o : Word) (p : PllCon) (q : CcuCon) : (s.setClock o p q).fpll = s.fpll := by cases s; rfl
@[simp] theorem State.setClock_freqCore (o : Word) (p : PllCon) (q : CcuCon) : (s.setClock o p q).freqCore = s.freqCore := by cases s; rfl
@[simp] theorem State.setClock_freqPeriph (o : Word) (p : PllCon) (q : CcuCon) : (s.setClock o p q).freqPeriph = s.freqPeriph := by cases s; rfl
@[simp] theorem State.setClock_freqCan (o : Word) (p : PllCon) (q : CcuCon) : (s.setClock o p q).freqCan = s.freqCan := by cases s; rfl
@[simp] theorem State.setClock_nodes (o : Word) (p : PllCon) (q : CcuCon) : (s.setClock o p q).nodes = s.nodes := by cases s; rfl
@[simp] theorem State.setClock_mbx (o : Word) (p : PllCon) (q : CcuCon) : (s.setClock o p q).mbx = s.mbx := by cases s; rfl
@[simp] theorem State.setClock_params (o : Word) (p : PllCon) (q : CcuCon) : (s.setClock o p q).params = s.params := by cases s; rfl
@[simp] theorem State.setClock_schedule (o : Word) (p : PllCon) (q : CcuCon) : (s.setClock o p q).schedule = s.schedule := by cases s; rfl
@[simp] theorem State.setClock_issuer (o : Word) (p : PllCon) (q : CcuCon) : (s.setClock o p q).issuer = s.issuer := by cases s; rfl
@[simp] theorem State.setClock_readData (o : Word) (p : PllCon) (q : CcuCon) : (s.setClock o p q).readData = s.readData := by cases s; rfl
@[simp] theorem State.setClock_ignoredCmd (o : Word) (p : PllCon) (q : CcuCon) : (s.setClock o p q).ignoredCmd = s.ignoredCmd := by cases s; rfl
@[simp] theorem State.bank_setClock (o : Word) (p : PllCon) (q : CcuCon) : (s.setClock o p q).bank b = s.bank b := by cases b <;> rfl
@[simp] theorem State.cur_setClock (o : Word) (p : PllCon) (q : CcuCon) : (s.setClock o p q).cur = s.cur := State.bank_setClock s s.issuer o p q
@[simp] theorem State.node_setClock (o : Word) (p : PllCon) (q : CcuCon) : (s.setClock o p q).node n = s.node n := by cases s; rfl
@[simp] theorem State.mbxRead_setClock (o : Word) (p : PllCon) (q : CcuCon) (k w : Nat) : (s.setClock o p q).mbxRead n k w = s.mbxRead n k w := by cases s; rfl

@[simp] theorem State.setFreqs_bank0 (f f0 f1 f2 : Word) : (s.setFreqs f f0 f1 f2).bank0 = s.bank0 := by cases s; rfl
@[simp] theorem State.setFreqs_bank1 (f f0 f1 f2 : Word) : (s.setFreqs f f0 f1 f2).bank1 = s.bank1 := by cases s; rfl
@[simp] theorem State.setFreqs_prot (f f0 f1 f2 : Word) : (s.setFreqs f f0 f1 f2).prot = s.prot := by cases s; rfl
@[simp] theorem State.setFreqs_faultReg (f f0 f1 f2 : Word) : (s.setFreqs f f0 f1 f2).faultReg = s.faultReg := by cases s; rfl
@[simp] theorem State.setFreqs_pllstat (f f0 f1 f2 : Word) : (s.setFreqs f f0 f1 f2).pllstat = s.pllstat := by cases s; rfl
@[simp] theorem State.setFreqs_oscfreq (f f0 f1 f2 : Word) : (s.setFreqs f f0 f1 f2).oscfreq = s.oscfreq := by cases s; rfl
@[simp] theorem State.setFreqs_pllcon (f f0 f1 f2 : Word) : (s.setFreqs f f0 f1 f2).pllcon = s.pllcon := by cases s; rfl
@[simp] theorem State.setFreqs_ccucon (f f0 f1 f2 : Word) : (s.setFreqs f f0 f1 f2).ccucon = s.ccucon := by cases s; rfl
@[simp] theorem State.setFreqs_clken (f f0 f1 f2 : Word) : (s.setFreqs f f0 f1 f2).clken = s.clken := by cases s; rfl
@[simp] theorem State.setFreqs_fpll (f f0 f1 f2 : Word) : (s.setFreqs f f0 f1 f2).fpll = f := by cases s; rfl
@[simp] theorem State.setFreqs_freqCore (f f0 f1 f2 : Word) : (s.setFreqs f f0 f1 f2).freqCore = f0 := by cases s; rfl
@[simp] theorem State.setFreqs_freqPeriph (f f0 f1 f2 : Word) : (s.setFreqs f f0 f1 f2).freqPeriph = f1 := by cases s; rfl
@[simp] theorem State.setFreqs_freqCan (f f0 f1 f2 : Word) : (s.setFreqs f f0 f1 f2).freqCan = f2 := by cases s; rfl
@[simp] theorem State.setFreqs_nodes (f f0 f1 f2 : Word) : (s.setFreqs f f0 f1 f2).nodes = s.nodes := by cases s; rfl
@[simp] theorem State.setFreqs_mbx (f f0 f1 f2 : Word) : (s.setFreqs f f0 f1 f2).mbx = s.mbx := by cases s; rfl
@[simp] theorem State.setFreqs_params (f f0 f1 f2 : Word) : (s.setFreqs f f0 f1 f2).params = s.params := by cases s; rfl
@[simp] theorem State.setFreqs_schedule (f f0 f1 f2 : Word) : (s.setFreqs f f0 f1 f2).schedule = s.schedule := by cases s; rfl
@[simp] theorem State.setFreqs_issuer (f f0 f1 f2 : Word) : (s.setFreqs f f0 f1 f2).issuer = s.issuer := by cases s; rfl
@[simp] theorem State.setFreqs_readData (f f0 f1 f2 : Word) : (s.setFreqs f f0 f1 f2).readData = s.readData := by cases s; rfl
@[simp] theorem State.setFreqs_ignoredCmd (f f0 f1 f2 : Word) : (s.setFreqs f f0 f1 f2).ignoredCmd = s.ignoredCmd := by cases s; rfl
@[simp] theorem State.bank_setFreqs (f f0 f1 f2 : Word) : (s.setFreqs f f0 f1 f2).bank b = s.bank b := by cases b <;> rfl
@[simp] theorem State.cur_setFreqs (f f0 f1 f2 : Word) : (s.setFreqs f f0 f1 f2).cur = s.cur := State.bank_setFreqs s s.issuer f f0 f1 f2
@[simp] theorem State.node_setFreqs (f f0 f1 f2 : Word) : (s.setFreqs f f0 f1 f2).node n = s.node n := by cases s; rfl
@[simp] theorem State.mbxRead_setFreqs (f f0 f1 f2 : Word) (k w : Nat) : (s.setFreqs f f0 f1 f2).mbxRead n k w = s.mbxRead n k w := by cases s; rfl

@[simp] theorem State.setClken_bank0 (e : ClkEn) : (s.setClken e).bank0 = s.bank0 := by cases s; rfl
@[simp] theorem State.setClken_bank1 (e : ClkEn) : (s.setClken e).bank1 = s.bank1 := by cases s; rfl
@[simp] theorem State.setClken_prot (e : ClkEn) : (s.setClken e).prot = s.prot := by cases s; rfl
@[simp] theorem State.setClken_faultReg (e : ClkEn) : (s.setClken e).faultReg = s.faultReg := by cases s; rfl
@[simp] theorem State.setClken_pllstat (e : ClkEn) : (s.setClken e).pllstat = s.pllstat := by cases s; rfl
@[simp] theorem State.setClken_oscfreq (e : ClkEn) : (s.setClken e).oscfreq = s.oscfreq := by cases s; rfl
@[simp] theorem State.setClken_pllcon (e : ClkEn) : (s.setClken e).pllcon = s.pllcon := by cases s; rfl
@[simp] theorem State.setClken_ccucon (e : ClkEn) : (s.setClken e).ccucon = s.ccucon := by cases s; rfl
@[simp] theorem State.setClken_clken (e : ClkEn) : (s.setClken e).clken = e := by cases s; rfl
@[simp] theorem State.setClken_fpll (e : ClkEn) : (s.setClken e).fpll = s.fpll := by cases s; rfl
@[simp] theorem State.setClken_freqCore (e : ClkEn) : (s.setClken e).freqCore = s.freqCore := by cases s; rfl
@[simp] theorem State.setClken_freqPeriph (e : ClkEn) : (s.setClken e).freqPeriph = s.freqPeriph := by cases s; rfl
@[simp] theorem State.setClken_freqCan (e : ClkEn) : (s.setClken e).freqCan = s.freqCan := by cases s; rfl
@[simp] theorem State.setClken_nodes (e : ClkEn) : (s.setClken e).nodes = s.nodes := by cases s; rfl
@[simp] theorem State.setClken_mbx (e : ClkEn) : (s.setClken e).mbx = s.mbx := by cases s; rfl
@[simp] theorem State.setClken_params (e : ClkEn) : (s.setClken e).params = s.params := by cases s; rfl
@[simp] theorem State.setClken_schedule (e : ClkEn) : (s.setClken e).schedule = s.schedule := by cases s; rfl
@[simp] theorem State.setClken_issuer (e : ClkEn) : (s.setClken e).issuer = s.issuer := by cases s; rfl
@[simp] theorem State.setClken_readData (e : ClkEn) : (s.setClken e).readData = s.readData := by cases s; rfl
@[simp] theorem State.setClken_ignoredCmd (e : ClkEn) : (s.setClken e).ignoredCmd = s.ignoredCmd := by cases s; rfl
@[simp] theorem State.bank_setClken (e : ClkEn) : (s.setClken e).bank b = s.bank b := by cases b <;> rfl
@[simp] theorem State.cur_setClken (e : ClkEn) : (s.setClken e).cur = s.cur := State.bank_setClken s s.issuer e
@[simp] theorem State.node_setClken (e : ClkEn) : (s.setClken e).node n = s.node n := by cases s; rfl
@[simp] theorem State.mbxRead_setClken (e : ClkEn) (k w : Nat) : (s.setClken e).mbxRead n k w = s.mbxRead n k w := by cases s; rfl

@[simp] theorem State.moved_bank0 (l : List Input) : (s.moved l).bank0 = s.bank0 := by cases s; rfl
@[simp] theorem State.moved_bank1 (l : List Input) : (s.moved l).bank1 = s.bank1 := by cases s; rfl
@[simp] theorem State.moved_prot (l : List Input) : (s.moved l).prot = s.prot := by cases s; rfl
@[simp] theorem State.moved_faultReg (l : List Input) : (s.moved l).faultReg = s.faultReg := by cases s; rfl
@[simp] theorem State.moved_pllstat (l : List Input) : (s.moved l).pllstat = s.pllstat := by cases s; rfl
@[simp] theorem State.moved_oscfreq (l : List Input) : (s.moved l).oscfreq = s.oscfreq := by cases s; rfl
@[simp] theorem State.moved_pllcon (l : List Input) : (s.moved l).pllcon = s.pllcon := by cases s; rfl
@[simp] theorem State.moved_ccucon (l : List Input) : (s.moved l).ccucon = s.ccucon := by cases s; rfl
@[simp] theorem State.moved_clken (l : List Input) : (s.moved l).clken = s.clken := by cases s; rfl
@[simp] theorem State.moved_fpll (l : List Input) : (s.moved l).fpll = s.fpll := by cases s; rfl
@[simp] theorem State.moved_freqCore (l : List Input) : (s.moved l).freqCore = s.freqCore := by cases s; rfl
@[simp] theorem State.moved_freqPeriph (l : List Input) : (s.moved l).freqPeriph = s.freqPeriph := by cases s; rfl
@[simp] theorem State.moved_freqCan (l : List Input) : (s.moved l).freqCan = s.freqCan := by cases s; rfl
@[simp] theorem State.moved_nodes (l : List Input) : (s.moved l).nodes = s.nodes := by cases s; rfl
@[simp] theorem State.moved_mbx (l : List Input) : (s.moved l).mbx = s.mbx := by cases s; rfl
@[simp] theorem State.moved_params (l : List Input) : (s.moved l).params = s.params := by cases s; rfl
@[simp] theorem State.moved_schedule (l : List Input) : (s.moved l).schedule = l := by cases s; rfl
@[simp] theorem State.moved_issuer (l : List Input) : (s.moved l).issuer = s.issuer := by cases s; rfl
@[simp] theorem State.moved_readData (l : List Input) : (s.moved l).readData = s.readData := by cases s; rfl
@[simp] theorem State.moved_ignoredCmd (l : List Input) : (s.moved l).ignoredCmd = s.ignoredCmd := by cases s; rfl
@[simp] theorem State.bank_moved (l : List Input) : (s.moved l).bank b = s.bank b := by cases b <;> rfl
@[simp] theorem State.cur_moved (l : List Input) : (s.moved l).cur = s.cur := State.bank_moved s s.issuer l
@[simp] theorem State.node_moved (l : List Input) : (s.moved l).node n = s.node n := by cases s; rfl
@[simp] theorem State.mbxRead_moved (l : List Input) (k w : Nat) : (s.moved l).mbxRead n k w = s.mbxRead n k w := by cases s; rfl

@[simp] theorem State.setIssuer_bank0 : (s.setIssuer b).bank0 = s.bank0 := by cases s; rfl
@[simp] theorem State.setIssuer_bank1 : (s.setIssuer b).bank1 = s.bank1 := by cases s; rfl
@[simp] theorem State.setIssuer_prot : (s.setIssuer b).prot = s.prot := by cases s; rfl
@[simp] theorem State.setIssuer_faultReg : (s.setIssuer b).faultReg = s.faultReg := by cases s; rfl
@[simp] theorem State.setIssuer_pllstat : (s.setIssuer b).pllstat = s.pllstat := by cases s; rfl
@[simp] theorem State.setIssuer_oscfreq : (s.setIssuer b).oscfreq = s.oscfreq := by cases s; rfl
@[simp] theorem State.setIssuer_pllcon : (s.setIssuer b).pllcon = s.pllcon := by cases s; rfl
@[simp] theorem State.setIssuer_ccucon : (s.setIssuer b).ccucon = s.ccucon := by cases s; rfl
@[simp] theorem State.setIssuer_clken : (s.setIssuer b).clken = s.clken := by cases s; rfl
@[simp] theorem State.setIssuer_fpll : (s.setIssuer b).fpll = s.fpll := by cases s; rfl
@[simp] theorem State.setIssuer_freqCore : (s.setIssuer b).freqCore = s.freqCore := by cases s; rfl
@[simp] theorem State.setIssuer_freqPeriph : (s.setIssuer b).freqPeriph = s.freqPeriph := by cases s; rfl
@[simp] theorem State.setIssuer_freqCan : (s.setIssuer b).freqCan = s.freqCan := by cases s; rfl
@[simp] theorem State.setIssuer_nodes : (s.setIssuer b).nodes = s.nodes := by cases s; rfl
@[simp] theorem State.setIssuer_mbx : (s.setIssuer b).mbx = s.mbx := by cases s; rfl
@[simp] theorem State.setIssuer_params : (s.setIssuer b).params = s.params := by cases s; rfl
@[simp] theorem State.setIssuer_schedule : (s.setIssuer b).schedule = s.schedule := by cases s; rfl
@[simp] theorem State.setIssuer_issuer : (s.setIssuer b).issuer = b := by cases s; rfl
@[simp] theorem State.setIssuer_readData : (s.setIssuer b).readData = s.readData := by cases s; rfl
@[simp] theorem State.setIssuer_ignoredCmd : (s.setIssuer b).ignoredCmd = s.ignoredCmd := by cases s; rfl
@[simp] theorem State.bank_setIssuer : (s.setIssuer b).bank c = s.bank c := by cases c <;> rfl
@[simp] theorem State.cur_setIssuer : (s.setIssuer b).cur = s.bank b := State.bank_setIssuer s b b
@[simp] theorem State.node_setIssuer : (s.setIssuer b).node n = s.node n := by cases s; rfl
@[simp] theorem State.mbxRead_setIssuer (k w : Nat) : (s.setIssuer b).mbxRead n k w = s.mbxRead n k w := by cases s; rfl

@[simp] theorem State.setReadData_bank0 (v : Word) : (s.setReadData v).bank0 = s.bank0 := by cases s; rfl
@[simp] theorem State.setReadData_bank1 (v : Word) : (s.setReadData v).bank1 = s.bank1 := by cases s; rfl
@[simp] theorem State.setReadData_prot (v : Word) : (s.setReadData v).prot = s.prot := by cases s; rfl
@[simp] theorem State.setReadData_faultReg (v : Word) : (s.setReadData v).faultReg = s.faultReg := by cases s; rfl
@[simp] theorem State.setReadData_pllstat (v : Word) : (s.setReadData v).pllstat = s.pllstat := by cases s; rfl
@[simp] theorem State.setReadData_oscfreq (v : Word) : (s.setReadData v).oscfreq = s.oscfreq := by cases s; rfl
@[simp] theorem State.setReadData_pllcon (v : Word) : (s.setReadData v).pllcon = s.pllcon := by cases s; rfl
@[simp] theorem State.setReadData_ccucon (v : Word) : (s.setReadData v).ccucon = s.ccucon := by cases s; rfl
@[simp] theorem State.setReadData_clken (v : Word) : (s.setReadData v).clken = s.clken := by cases s; rfl
@[simp] theorem State.setReadData_fpll (v : Word) : (s.setReadData v).fpll = s.fpll := by cases s; rfl
@[simp] theorem State.setReadData_freqCore (v : Word) : (s.setReadData v).freqCore = s.freqCore := by cases s; rfl
@[simp] theorem State.setReadData_freqPeriph (v : Word) : (s.setReadData v).freqPeriph = s.freqPeriph := by cases s; rfl
@[simp] theorem State.setReadData_freqCan (v : Word) : (s.setReadData v).freqCan = s.freqCan := by cases s; rfl
@[simp] theorem State.setReadData_nodes (v : Word) : (s.setReadData v).nodes = s.nodes := by cases s; rfl
@[simp] theorem State.setReadData_mbx (v : Word) : (s.setReadData v).mbx = s.mbx := by cases s; rfl
@[simp] theorem State.setReadData_params (v : Word) : (s.setReadData v).params = s.params := by cases s; rfl
@[simp] theorem State.setReadData_schedule (v : Word) : (s.setReadData v).schedule = s.schedule := by cases s; rfl
@[simp] theorem State.setReadData_issuer (v : Word) : (s.setReadData v).issuer = s.issuer := by cases s; rfl
@[simp] theorem State.setReadData_readData (v : Word) : (s.setReadData v).readData = v := by cases s; rfl
@[simp] theorem State.setReadData_ignoredCmd (v : Word) : (s.setReadData v).ignoredCmd = s.ignoredCmd := by cases s; rfl
@[simp] theorem State.bank_setReadData (v : Word) : (s.setReadData v).bank b = s.bank b := by cases b <;> rfl
@[simp] theorem State.cur_setReadData (v : Word) : (s.setReadData v).cur = s.cur := State.bank_setReadData s s.issuer v
@[simp] theorem State.node_setReadData (v : Word) : (s.setReadData v).node n = s.node n := by cases s; rfl
@[simp] theorem State.mbxRead_setReadData (v : Word) (k w : Nat) : (s.setReadData v).mbxRead n k w = s.mbxRead n k w := by cases s; rfl

@[simp] theorem State.flagIgnored_bank0 : (s.flagIgnored).bank0 = s.bank0 := by cases s; rfl
@[simp] theorem State.flagIgnored_bank1 : (s.flagIgnored).bank1 = s.bank1 := by cases s; rfl
@[simp] theorem State.flagIgnored_prot : (s.flagIgnored).prot = s.prot := by cases s; rfl
@[simp] theorem State.flagIgnored_faultReg : (s.flagIgnored).faultReg = s.faultReg := by cases s; rfl
@[simp] theorem State.flagIgnored_pllstat : (s.flagIgnored).pllstat = s.pllstat := by cases s; rfl
@[simp] theorem State.flagIgnored_oscfreq : (s.flagIgnored).oscfreq = s.oscfreq := by cases s; rfl
@[simp] theorem State.flagIgnored_pllcon : (s.flagIgnored).pllcon = s.pllcon := by cases s; rfl
@[simp] theorem State.flagIgnored_ccucon : (s.flagIgnored).ccucon = s.ccucon := by cases s; rfl
@[simp] theorem State.flagIgnored_clken : (s.flagIgnored).clken = s.clken := by cases s; rfl
@[simp] theorem State.flagIgnored_fpll : (s.flagIgnored).fpll = s.fpll := by cases s; rfl
@[simp] theorem State.flagIgnored_freqCore : (s.flagIgnored).freqCore = s.freqCore := by cases s; rfl
@[simp] theorem State.flagIgnored_freqPeriph : (s.flagIgnored).freqPeriph = s.freqPeriph := by cases s; rfl
@[simp] theorem State.flagIgnored_freqCan : (s.flagIgnored).freqCan = s.freqCan := by cases s; rfl
@[simp] theorem State.flagIgnored_nodes : (s.flagIgnored).nodes = s.nodes := by cases s; rfl
@[simp] theorem State.flagIgnored_mbx : (s.flagIgnored).mbx = s.mbx := by cases s; rfl
@[simp] theorem State.flagIgnored_params : (s.flagIgnored).params = s.params := by cases s; rfl
@[simp] theorem State.flagIgnored_schedule : (s.flagIgnored).schedule = s.schedule := by cases s; rfl
@[simp] theorem State.flagIgnored_issuer : (s.flagIgnored).issuer = s.issuer := by cases s; rfl
@[simp] theorem State.flagIgnored_readData : (s.flagIgnored).readData = s.readData := by cases s; rfl
@[simp] theorem State.flagIgnored_ignoredCmd : (s.flagIgnored).ignoredCmd = true := by cases s; rfl
@[simp] theorem State.bank_flagIgnored : (s.flagIgnored).bank b = s.bank b := by cases b <;> rfl
@[simp] theorem State.cur_flagIgnored : (s.flagIgnored).cur = s.cur := State.bank_flagIgnored s s.issuer
@[simp] theorem State.node_flagIgnored : (s.flagIgnored).node n = s.node n := by cases s; rfl
@[simp] theorem State.mbxRead_flagIgnored (k w : Nat) : (s.flagIgnored).mbxRead n k w = s.mbxRead n k w := by cases s; rfl

/-- The node vector is determined by its reads: two states with equal reads and equal other fields are equal. -/
theorem State.nodes_ext {s t : State} (h : ∀ n : NodeId, t.node n = s.node n) : t.nodes = s.nodes := by
  apply Vector.ext
  intro i hi
  exact h ⟨i, hi⟩

@[simp] theorem State.setNode_self (s : State) (n : NodeId) : s.setNode n (s.node n) = s := by
  cases s; simp [State.setNode, State.node]

@[simp] theorem State.setNode_setNode (s : State) (n : NodeId) (r r' : NodeRegs) :
    (s.setNode n r).setNode n r' = s.setNode n r' := by
  cases s; simp [State.setNode]

@[simp] theorem BankId.other_ne (b : BankId) : b.other ≠ b := by cases b <;> decide

@[simp] theorem BankId.ne_other (b : BankId) : b ≠ b.other := by cases b <;> decide

theorem State.bank_setCur (s : State) (bk : Bank) (b : BankId) :
    (s.setCur bk).bank b = if b = s.issuer then bk else s.bank b :=
  State.bank_setBank s s.issuer b bk

end Sys2Proof.Machine
end

