-- ==== Sys2Proof/Laws/Memory.lean ====
section
/-! SUPPORT. The mailbox memory: what a read sees after a write, and that every write keeps the canonical form. -/

namespace Sys2Proof.Machine

/-- Below every listed address nothing is listed. -/
theorem Memory.read_of_lt (mem : Memory) (a : Nat) (h : ∀ c ∈ mem, a < c.1) : mem.read a = 0 := by
  induction mem with
  | nil => rfl
  | cons c t ih =>
    have hc := h c (by simp)
    simp only [Memory.read]
    rw [if_neg (by omega)]
    exact ih fun d hd => h d (by simp [hd])

/-- A write leaves every other address alone. -/
theorem Memory.read_write_other (mem : Memory) (a a' : Nat) (v : Word) (h : a' ≠ a) :
    (mem.write a v).read a' = mem.read a' := by
  induction mem with
  | nil => simp only [Memory.write]; split <;> simp [Memory.read, Ne.symm h]
  | cons c t ih =>
    obtain ⟨k, x⟩ := c
    simp only [Memory.write]
    split_ifs with h1 h2 h3 h4 <;> simp only [Memory.read] <;> grind

/-- In canonical form a read after a write of the same address gives the word written. -/
theorem Memory.read_write_same (mem : Memory) (a : Nat) (v : Word) (hw : mem.wf) : (mem.write a v).read a = v := by
  induction mem with
  | nil => simp only [Memory.write]; split <;> simp_all [Memory.read]
  | cons c t ih =>
    obtain ⟨k, x⟩ := c
    obtain ⟨hp, hz⟩ := hw
    rw [List.pairwise_cons] at hp
    have ht : Memory.wf t := ⟨hp.2, fun d hd => hz d (by simp [hd])⟩
    have hgt : ∀ d ∈ t, k < d.1 := hp.1
    simp only [Memory.write]
    split_ifs with h1 h2 h3 h4
    · subst h2
      refine Memory.read_of_lt _ _ ?_
      intro d hd
      rcases List.mem_cons.mp hd with rfl | hd
      · exact h1
      · exact lt_trans h1 (hgt d hd)
    · simp [Memory.read]
    · subst h3; subst h4
      exact Memory.read_of_lt _ _ hgt
    · simp [Memory.read]
    · simp only [Memory.read]
      rw [if_neg (by omega)]
      exact ih ht

theorem Memory.read_write (mem : Memory) (a a' : Nat) (v : Word) (hw : mem.wf) :
    (mem.write a v).read a' = if a' = a then v else mem.read a' := by
  split
  · next h => subst h; exact Memory.read_write_same mem a' v hw
  · next h => exact Memory.read_write_other mem a a' v h

/-- The addresses a write leaves listed were listed or are the address written. -/
theorem Memory.mem_write (mem : Memory) (a : Nat) (v : Word) (c : Nat × Word) (h : c ∈ mem.write a v) :
    c = (a, v) ∧ v ≠ 0 ∨ c ∈ mem := by
  induction mem with
  | nil =>
    simp only [Memory.write] at h
    split at h <;> simp_all
  | cons d t ih =>
    obtain ⟨k, x⟩ := d
    simp only [Memory.write] at h
    split_ifs at h with h1 h2 h3 h4
    · exact .inr h
    · rcases List.mem_cons.mp h with rfl | h
      · exact .inl ⟨rfl, h2⟩
      · exact .inr h
    · exact .inr (by simp [h])
    · rcases List.mem_cons.mp h with rfl | h
      · exact .inl ⟨rfl, h4⟩
      · exact .inr (by simp [h])
    · rcases List.mem_cons.mp h with rfl | h
      · exact .inr (by simp)
      · rcases ih h with h | h
        · exact .inl h
        · exact .inr (by simp [h])

/-- Every write keeps the canonical form. -/
theorem Memory.wf_write (mem : Memory) (a : Nat) (v : Word) (hw : mem.wf) : (mem.write a v).wf := by
  refine ⟨?_, ?_⟩
  · induction mem with
    | nil => simp only [Memory.write]; split <;> simp
    | cons c t ih =>
      obtain ⟨k, x⟩ := c
      obtain ⟨hp, hz⟩ := hw
      have hp' := List.pairwise_cons.mp hp
      have ht : Memory.wf t := ⟨hp'.2, fun d hd => hz d (by simp [hd])⟩
      simp only [Memory.write]
      split_ifs with h1 h2 h3 h4
      · exact hp
      · refine List.pairwise_cons.mpr ⟨?_, hp⟩
        intro d hd
        rcases List.mem_cons.mp hd with rfl | hd
        · exact h1
        · exact lt_trans h1 (hp'.1 d hd)
      · exact hp'.2
      · subst h3
        exact List.pairwise_cons.mpr ⟨fun d hd => hp'.1 d hd, hp'.2⟩
      · refine List.pairwise_cons.mpr ⟨?_, ih ht⟩
        intro d hd
        rcases Memory.mem_write t a v d hd with ⟨rfl, -⟩ | hd
        · show k < a
          omega
        · exact hp'.1 d hd
  · intro c hc
    rcases Memory.mem_write mem a v c hc with ⟨rfl, h⟩ | h
    · exact h
    · exact hw.2 c h

/-- Different places of the mailbox space have different addresses. -/
theorem moAddr_inj {n n' : NodeId} {m m' w w' : Nat} (hm : m < 32) (hm' : m' < 32) (hw : w < 8) (hw' : w' < 8)
    (h : moAddr n m w = moAddr n' m' w') : n = n' ∧ m = m' ∧ w = w' := by
  simp only [moAddr] at h
  refine ⟨Fin.ext ?_, ?_, ?_⟩ <;> omega

/-- What `MbxRead` sees after `MbxWrite` (R74). -/
theorem State.mbxRead_mbxWrite (s : State) (n n' : NodeId) (m m' w w' : Nat) (v : Word) (hs : s.mbx.wf)
    (hm : m < 32) (hm' : m' < 32) (hw : w < 8) (hw' : w' < 8) :
    (s.mbxWrite n m w v).mbxRead n' m' w' = if n' = n ∧ m' = m ∧ w' = w then v else s.mbxRead n' m' w' := by
  simp only [State.mbxRead, State.mbxWrite, Memory.read_write _ _ _ _ hs]
  by_cases h : moAddr n' m' w' = moAddr n m w
  · obtain ⟨rfl, rfl, rfl⟩ := moAddr_inj hm' hm hw' hw h
    simp
  · rw [if_neg h, if_neg]
    rintro ⟨rfl, rfl, rfl⟩
    exact h rfl

/-- `MbxWrite` keeps the canonical form. -/
theorem State.mbxWrite_wf (s : State) (n : NodeId) (m w : Nat) (v : Word) (hs : s.mbx.wf) : (s.mbxWrite n m w v).mbx.wf :=
  Memory.wf_write s.mbx _ v hs

end Sys2Proof.Machine
end

