-- ==== Sys2Proof/Laws/Ops.lean ====
section
/-! SUPPORT. What each shared operation does, said once: the ends of a command, the fault entry, the guard, the searches,
and the writes of the message objects with their frames and the canonical form of the memory. -/

namespace Sys2Proof.Machine

/-! ### The ends of a command -/

theorem State.ret_eq_next {s t : State} {c : ResultCode} :
    s.ret c = .next t ↔ t = s.setCur { s.cur with code := c } := by
  simp [State.ret, eq_comm]

theorem State.startWait_eq_next {s t : State} {k : WaitKind} {n : NodeId} {l : Word} :
    s.startWait k n l = .next t ↔
      t = s.setCur { s.cur with
        waitKind := k, waitNode := n, waitLim := l, waitCnt := 0, busy := true, code := .pending } := by
  simp [State.startWait, eq_comm]

theorem State.finish_eq_next {s t : State} {b : BankId} {c : ResultCode} :
    s.finish b c = .next t ↔
      t = s.setBank b { s.bank b with waitKind := .none, waitNode := 0, busy := false, code := c } := by
  simp [State.finish, eq_comm]

theorem State.countPoll_eq_next {s t : State} {b : BankId} :
    s.countPoll b = .next t ↔ t = s.setBank b { s.bank b with waitCnt := (s.bank b).waitCnt + 1 } := by
  simp [State.countPoll, eq_comm]

/-- `guarded` refuses a held guard and otherwise runs the body between acquire and release (R132). -/
theorem State.guarded_of_held {s : State} {body : State → State} {rest : State → Result} (h : s.prot.held = true) :
    s.guarded body rest = s.ret .guardAlreadyHeld := by
  simp [State.guarded, h]

theorem State.guarded_of_free {s : State} {body : State → State} {rest : State → Result} (h : s.prot.held = false) :
    s.guarded body rest = rest (body s.acquire).release := by
  simp [State.guarded, h]

/-! ### The fault entry -/

/-- What the abort of a wait does to the bank itself (R305). -/
theorem State.abortWait_bank (s : State) (c b : BankId) :
    (s.abortWait c).bank b =
      if b = c ∧ (s.bank c).busy = true then
        { s.bank c with waitKind := .none, waitNode := 0, busy := false, code := .faulted }
      else s.bank b := by
  unfold State.abortWait State.setRecovering
  by_cases h : (s.bank c).busy = true
  · by_cases hb : b = c
    · subst hb; simp only [h, if_true]; split <;> simp
    · simp only [h, if_true]; split <;> simp [hb, State.bank_setBank]
  · simp [h]

/-- What the abort of a wait does to a node: only a recovery wait of a busy bank clears `RECOVERING` (R305). -/
theorem State.abortWait_node (s : State) (c : BankId) (n : NodeId) :
    (s.abortWait c).node n =
      if (s.bank c).busy = true ∧ (s.bank c).waitKind = .recov ∧ n = (s.bank c).waitNode then
        { s.node n with recovering := false }
      else s.node n := by
  unfold State.abortWait State.setRecovering
  by_cases h : (s.bank c).busy = true
  · by_cases hk : (s.bank c).waitKind = .recov
    · simp only [h, hk, if_true, State.node_setBank, State.node_setNode, true_and]
      split
      · next hn => subst hn; rfl
      · rfl
    · simp [h, hk]
  · simp [h]

/-! Nothing but banks and nodes changes when a wait is aborted. -/

variable (s : State) (c : BankId) (cause : FaultCause)

@[simp] theorem State.abortWait_prot : (s.abortWait c).prot = s.prot := by
  simp only [State.abortWait, State.setRecovering]; split_ifs <;> simp
@[simp] theorem State.abortWait_faultReg : (s.abortWait c).faultReg = s.faultReg := by
  simp only [State.abortWait, State.setRecovering]; split_ifs <;> simp
@[simp] theorem State.abortWait_pllstat : (s.abortWait c).pllstat = s.pllstat := by
  simp only [State.abortWait, State.setRecovering]; split_ifs <;> simp
@[simp] theorem State.abortWait_oscfreq : (s.abortWait c).oscfreq = s.oscfreq := by
  simp only [State.abortWait, State.setRecovering]; split_ifs <;> simp
@[simp] theorem State.abortWait_pllcon : (s.abortWait c).pllcon = s.pllcon := by
  simp only [State.abortWait, State.setRecovering]; split_ifs <;> simp
@[simp] theorem State.abortWait_ccucon : (s.abortWait c).ccucon = s.ccucon := by
  simp only [State.abortWait, State.setRecovering]; split_ifs <;> simp
@[simp] theorem State.abortWait_clken : (s.abortWait c).clken = s.clken := by
  simp only [State.abortWait, State.setRecovering]; split_ifs <;> simp
@[simp] theorem State.abortWait_fpll : (s.abortWait c).fpll = s.fpll := by
  simp only [State.abortWait, State.setRecovering]; split_ifs <;> simp
@[simp] theorem State.abortWait_freqCore : (s.abortWait c).freqCore = s.freqCore := by
  simp only [State.abortWait, State.setRecovering]; split_ifs <;> simp
@[simp] theorem State.abortWait_freqPeriph : (s.abortWait c).freqPeriph = s.freqPeriph := by
  simp only [State.abortWait, State.setRecovering]; split_ifs <;> simp
@[simp] theorem State.abortWait_freqCan : (s.abortWait c).freqCan = s.freqCan := by
  simp only [State.abortWait, State.setRecovering]; split_ifs <;> simp
@[simp] theorem State.abortWait_mbx : (s.abortWait c).mbx = s.mbx := by
  simp only [State.abortWait, State.setRecovering]; split_ifs <;> simp
@[simp] theorem State.abortWait_params : (s.abortWait c).params = s.params := by
  simp only [State.abortWait, State.setRecovering]; split_ifs <;> simp
@[simp] theorem State.abortWait_schedule : (s.abortWait c).schedule = s.schedule := by
  simp only [State.abortWait, State.setRecovering]; split_ifs <;> simp
@[simp] theorem State.abortWait_issuer : (s.abortWait c).issuer = s.issuer := by
  simp only [State.abortWait, State.setRecovering]; split_ifs <;> simp
@[simp] theorem State.abortWait_readData : (s.abortWait c).readData = s.readData := by
  simp only [State.abortWait, State.setRecovering]; split_ifs <;> simp
@[simp] theorem State.abortWait_ignoredCmd : (s.abortWait c).ignoredCmd = s.ignoredCmd := by
  simp only [State.abortWait, State.setRecovering]; split_ifs <;> simp

/-- The state a fault of the issuing bank leads to (R304). -/
def State.faulted (s : State) (cause : FaultCause) : State :=
  let t := ((s.setFault ⟨cause, s.cur.cmd.extractLsb' 0 8, s.cur.cmd.extractLsb' 8 4, s.issuer⟩).abortWait .fg).abortWait .irq
  t.setCur { t.cur with code := .faulted, busy := false }

theorem State.raiseFault_eq_next {s t : State} {cause : FaultCause} :
    s.raiseFault cause = .next t ↔ t = s.faulted cause := by
  simp only [State.raiseFault, State.faulted, Host.Outcome.next.injEq, eq_comm]

@[simp] theorem State.faulted_prot : (s.faulted cause).prot = s.prot := by simp [State.faulted]
@[simp] theorem State.faulted_faultReg :
    (s.faulted cause).faultReg = some ⟨cause, s.cur.cmd.extractLsb' 0 8, s.cur.cmd.extractLsb' 8 4, s.issuer⟩ := by simp [State.faulted]
@[simp] theorem State.faulted_pllstat : (s.faulted cause).pllstat = s.pllstat := by simp [State.faulted]
@[simp] theorem State.faulted_oscfreq : (s.faulted cause).oscfreq = s.oscfreq := by simp [State.faulted]
@[simp] theorem State.faulted_pllcon : (s.faulted cause).pllcon = s.pllcon := by simp [State.faulted]
@[simp] theorem State.faulted_ccucon : (s.faulted cause).ccucon = s.ccucon := by simp [State.faulted]
@[simp] theorem State.faulted_clken : (s.faulted cause).clken = s.clken := by simp [State.faulted]
@[simp] theorem State.faulted_fpll : (s.faulted cause).fpll = s.fpll := by simp [State.faulted]
@[simp] theorem State.faulted_freqCore : (s.faulted cause).freqCore = s.freqCore := by simp [State.faulted]
@[simp] theorem State.faulted_freqPeriph : (s.faulted cause).freqPeriph = s.freqPeriph := by simp [State.faulted]
@[simp] theorem State.faulted_freqCan : (s.faulted cause).freqCan = s.freqCan := by simp [State.faulted]
@[simp] theorem State.faulted_mbx : (s.faulted cause).mbx = s.mbx := by simp [State.faulted]
@[simp] theorem State.faulted_params : (s.faulted cause).params = s.params := by simp [State.faulted]
@[simp] theorem State.faulted_schedule : (s.faulted cause).schedule = s.schedule := by simp [State.faulted]
@[simp] theorem State.faulted_issuer : (s.faulted cause).issuer = s.issuer := by simp [State.faulted]
@[simp] theorem State.faulted_readData : (s.faulted cause).readData = s.readData := by simp [State.faulted]
@[simp] theorem State.faulted_ignoredCmd : (s.faulted cause).ignoredCmd = s.ignoredCmd := by simp [State.faulted]

/-- What the fault entry does to each bank: a busy one has its wait aborted, the issuing one shows `FAULTED`. -/
theorem State.faulted_bank (s : State) (cause : FaultCause) (b : BankId) :
    (s.faulted cause).bank b =
      if (s.bank b).busy = true then
        { s.bank b with waitKind := .none, waitNode := 0, busy := false, code := .faulted }
      else if b = s.issuer then { s.bank b with code := .faulted }
      else s.bank b := by
  have hb : ∀ f c, (((s.setFault f).abortWait .fg).abortWait .irq).bank c =
      if (s.bank c).busy = true then
        { s.bank c with waitKind := .none, waitNode := 0, busy := false, code := .faulted } else s.bank c := by
    intro f c
    cases c <;> simp [State.abortWait_bank, -State.bank_fg, -State.bank_irq]
  simp only [State.faulted, State.setCur, State.cur, State.bank_setBank, State.abortWait_issuer, State.setFault_issuer, hb]
  by_cases hi : b = s.issuer
  · subst hi
    cases h : (s.bank s.issuer).busy
    · ext <;> simp
    · simp
  · simp [hi]

theorem NodeRegs.clear_twice {p q : Prop} [Decidable p] [Decidable q] (r : NodeRegs) :
    (if q then { (if p then { r with recovering := false } else r) with recovering := false }
      else if p then { r with recovering := false } else r) =
    if p ∨ q then { r with recovering := false } else r := by
  by_cases hp : p <;> by_cases hq : q <;> simp [hp, hq]

/-- What the fault entry does to each node: it ends a recovery that a busy bank waits for. -/
theorem State.faulted_node (s : State) (cause : FaultCause) (n : NodeId) :
    (s.faulted cause).node n =
      if (s.bank0.busy = true ∧ s.bank0.waitKind = .recov ∧ n = s.bank0.waitNode) ∨
          (s.bank1.busy = true ∧ s.bank1.waitKind = .recov ∧ n = s.bank1.waitNode) then
        { s.node n with recovering := false }
      else s.node n := by
  have h1 : ∀ f, ((s.setFault f).abortWait .fg).bank1 = s.bank1 := fun f => by
    have := State.abortWait_bank (s.setFault f) .fg .irq
    simpa using this
  simp only [State.faulted, State.node_setCur, State.abortWait_node, State.node_setFault,
    State.bank_fg, State.bank_irq, State.setFault_bank0, h1]
  exact NodeRegs.clear_twice _

/-! ### The searches -/

/-- `leastMbx` finds exactly the least index in range with the condition. -/
theorem leastMbx_eq_some {p : Params} {c : Nat → Bool} {m : Nat} :
    leastMbx p c = some m ↔ m < p.nMbx ∧ c m = true ∧ ∀ k < m, c k = false := by
  simp only [leastMbx, List.find?_range_eq_some, List.mem_range, Bool.not_eq_eq_eq_not,
    Bool.not_true]
  tauto

theorem leastMbx_eq_none {p : Params} {c : Nat → Bool} : leastMbx p c = none ↔ ∀ m < p.nMbx, c m = false := by
  simp [leastMbx]

/-! ### The message objects -/

theorem State.setMoBusy_wf (s : State) (n : NodeId) (m : Nat) (v : Bool) (h : s.mbx.wf) : (s.setMoBusy n m v).mbx.wf :=
  State.mbxWrite_wf s n m 0 _ h

/-- Only `MOCTRL` of the object changes, and in it only `BUSY`. -/
theorem State.mbxRead_setMoBusy (s : State) (n n' : NodeId) (m m' w' : Nat) (v : Bool) (h : s.mbx.wf)
    (hm : m < 32) (hm' : m' < 32) (hw' : w' < 8) :
    (s.setMoBusy n m v).mbxRead n' m' w' =
      if n' = n ∧ m' = m ∧ w' = 0 then moSetBusy (s.moctrl n m) v else s.mbxRead n' m' w' :=
  State.mbxRead_mbxWrite s n n' m m' 0 w' _ h hm hm' (by omega) hw'

theorem State.node_setMoBusy (s : State) (n n' : NodeId) (m : Nat) (v : Bool) :
    (s.setMoBusy n m v).node n' =
      if n' = n then { s.node n with nbusy := bitmapSet (s.node n).nbusy m v } else s.node n' := by
  simp [State.setMoBusy, State.node_setNode]

/-- Only the memory and the nodes change. -/
theorem State.setMoBusy_rest (s : State) (n : NodeId) (m : Nat) (v : Bool) :
    { s.setMoBusy n m v with mbx := s.mbx, nodes := s.nodes } = s := rfl

theorem State.storeFrame_wf (s : State) (n : NodeId) (m : Nat) (dlc : BitVec 4) (rtr ide : Bool) (id dl dh : Word)
    (h : s.mbx.wf) : (s.storeFrame n m dlc rtr ide id dl dh).mbx.wf :=
  State.mbxWrite_wf _ n m 5 _ (State.mbxWrite_wf _ n m 4 _ (State.mbxWrite_wf _ n m 1 _ (State.mbxWrite_wf s n m 0 _ h)))

/-- Storing a frame writes words 0, 1, 4 and 5 of the object and nothing else; the filter words stay. -/
theorem State.mbxRead_storeFrame (s : State) (n n' : NodeId) (m m' w' : Nat) (dlc : BitVec 4) (rtr ide : Bool)
    (id dl dh : Word) (h : s.mbx.wf) (hm : m < 32) (hm' : m' < 32) (hw' : w' < 8) :
    (s.storeFrame n m dlc rtr ide id dl dh).mbxRead n' m' w' =
      if n' = n ∧ m' = m then
        if w' = 0 then moSetFrame (s.moctrl n m) dlc rtr ide
        else if w' = 1 then id else if w' = 4 then dl else if w' = 5 then dh else s.mbxRead n' m' w'
      else s.mbxRead n' m' w' := by
  have h0 := State.mbxWrite_wf s n m 0 (moSetFrame (s.moctrl n m) dlc rtr ide) h
  have h1 := State.mbxWrite_wf _ n m 1 id h0
  have h4 := State.mbxWrite_wf _ n m 4 dl h1
  simp only [State.storeFrame, State.mbxRead_setNode]
  rw [State.mbxRead_mbxWrite _ n n' m m' 5 w' dh h4 hm hm' (by omega) hw',
    State.mbxRead_mbxWrite _ n n' m m' 4 w' dl h1 hm hm' (by omega) hw',
    State.mbxRead_mbxWrite _ n n' m m' 1 w' id h0 hm hm' (by omega) hw',
    State.mbxRead_mbxWrite _ n n' m m' 0 w' _ h hm hm' (by omega) hw']
  by_cases hn : n' = n ∧ m' = m
  · obtain ⟨rfl, rfl⟩ := hn
    simp only [true_and, and_self, if_true]
    split_ifs <;> first | rfl | omega
  · have : ∀ k, ¬(n' = n ∧ m' = m ∧ w' = k) := fun k hk => hn ⟨hk.1, hk.2.1⟩
    simp only [this, hn, if_false]

theorem State.node_storeFrame (s : State) (n n' : NodeId) (m : Nat) (dlc : BitVec 4) (rtr ide : Bool)
    (id dl dh : Word) :
    (s.storeFrame n m dlc rtr ide id dl dh).node n' =
      if n' = n then { s.node n with nbusy := bitmapSet (s.node n).nbusy m true } else s.node n' := by
  simp [State.storeFrame, State.node_setNode]

/-- Only the memory and the nodes change. -/
theorem State.storeFrame_rest (s : State) (n : NodeId) (m : Nat) (dlc : BitVec 4) (rtr ide : Bool) (id dl dh : Word) :
    { s.storeFrame n m dlc rtr ide id dl dh with mbx := s.mbx, nodes := s.nodes } = s := by
  unfold State.storeFrame State.mbxWrite State.setNode
  dsimp only

/-- The state with another mailbox memory, every other field kept. -/
def State.withMbx (s : State) (mem : Memory) : State := { s with mbx := mem }

@[simp] theorem State.withMbx_mbx (s : State) (mem : Memory) : (s.withMbx mem).mbx = mem := rfl

@[simp] theorem State.withMbx_withMbx (s : State) (mem mem' : Memory) :
    (s.withMbx mem).withMbx mem' = s.withMbx mem' := rfl

@[simp] theorem State.withMbx_self (s : State) : s.withMbx s.mbx = s := rfl

/-- The writes of one object's words from a list of word indices, all 0. -/
theorem State.clearWords_wf (n : NodeId) (m : Nat) (ws : List Nat) (s : State) (h : s.mbx.wf) :
    (ws.foldl (fun t w => t.mbxWrite n m w 0) s).mbx.wf := by
  induction ws generalizing s with
  | nil => exact h
  | cons w ws ih => exact ih _ (State.mbxWrite_wf s n m w 0 h)

theorem State.clearWords_eq (n : NodeId) (m : Nat) (ws : List Nat) (s : State) :
    ws.foldl (fun t w => t.mbxWrite n m w 0) s =
      s.withMbx (ws.foldl (fun mem w => mem.write (moAddr n m w) 0) s.mbx) := by
  induction ws generalizing s with
  | nil => rfl
  | cons w ws ih => exact ih (s.mbxWrite n m w 0)

theorem State.mbxRead_clearWords (n n' : NodeId) (m m' w' : Nat) (ws : List Nat) (s : State) (h : s.mbx.wf)
    (hm : m < 32) (hm' : m' < 32) (hw' : w' < 8) (hws : ∀ w ∈ ws, w < 8) :
    (ws.foldl (fun t w => t.mbxWrite n m w 0) s).mbxRead n' m' w' =
      if n' = n ∧ m' = m ∧ w' ∈ ws then 0 else s.mbxRead n' m' w' := by
  induction ws generalizing s with
  | nil => simp
  | cons w ws ih =>
    simp only [List.foldl_cons]
    rw [ih _ (State.mbxWrite_wf s n m w 0 h) (fun x hx => hws x (by simp [hx])),
      State.mbxRead_mbxWrite s n n' m m' w w' 0 h hm hm' (hws w (by simp)) hw']
    by_cases hn : n' = n ∧ m' = m
    · obtain ⟨rfl, rfl⟩ := hn
      by_cases h1 : w' = w <;> by_cases h2 : w' ∈ ws <;> simp [h1, h2]
    · have h1 : ¬(n' = n ∧ m' = m ∧ w' ∈ ws) := fun hk => hn ⟨hk.1, hk.2.1⟩
      have h2 : ¬(n' = n ∧ m' = m ∧ w' = w) := fun hk => hn ⟨hk.1, hk.2.1⟩
      have h3 : ¬(n' = n ∧ m' = m ∧ w' ∈ w :: ws) := fun hk => hn ⟨hk.1, hk.2.1⟩
      simp only [h1, h2, h3, if_false]

theorem State.clearObject_wf (s : State) (n : NodeId) (m : Nat) (h : s.mbx.wf) : (s.clearObject n m).mbx.wf :=
  State.clearWords_wf n m (List.range 6) s h

/-- All six words of the object read 0, every other word as before. -/
theorem State.mbxRead_clearObject (s : State) (n n' : NodeId) (m m' w' : Nat) (h : s.mbx.wf)
    (hm : m < 32) (hm' : m' < 32) (hw' : w' < 8) :
    (s.clearObject n m).mbxRead n' m' w' = if n' = n ∧ m' = m ∧ w' < 6 then 0 else s.mbxRead n' m' w' := by
  have := State.mbxRead_clearWords n n' m m' w' (List.range 6) s h hm hm' hw' fun w hw => by
    have := List.mem_range.mp hw; omega
  simp only [List.mem_range] at this
  exact this

theorem State.clearObject_eq (s : State) (n : NodeId) (m : Nat) :
    s.clearObject n m = s.withMbx (s.clearObject n m).mbx := by
  conv_lhs => rw [State.clearObject, State.clearWords_eq]
  rw [State.clearObject, State.clearWords_eq, State.withMbx_mbx]

/-- Clearing the objects of a list of indices. -/
theorem State.clearObjects_spec (n : NodeId) (ms : List Nat) (s : State) (h : s.mbx.wf) :
    (ms.foldl (fun t m => t.clearObject n m) s).mbx.wf ∧
    (∃ mem, ms.foldl (fun t m => t.clearObject n m) s = s.withMbx mem) ∧
    ((∀ m ∈ ms, m < 32) → ∀ (n' : NodeId) (m' w' : Nat), m' < 32 → w' < 8 →
      (ms.foldl (fun t m => t.clearObject n m) s).mbxRead n' m' w' =
        if n' = n ∧ m' ∈ ms ∧ w' < 6 then 0 else s.mbxRead n' m' w') := by
  induction ms generalizing s with
  | nil => exact ⟨h, ⟨s.mbx, rfl⟩, by simp⟩
  | cons m ms ih =>
    obtain ⟨i1, ⟨mem, e⟩, i3⟩ := ih (s.clearObject n m) (State.clearObject_wf s n m h)
    simp only [List.foldl_cons]
    refine ⟨i1, ?_, ?_⟩
    · exact ⟨mem, by rw [e, State.clearObject_eq s n m, State.withMbx_withMbx]⟩
    · intro hms n' m' w' hm' hw'
      rw [i3 (fun x hx => hms x (by simp [hx])) n' m' w' hm' hw',
        State.mbxRead_clearObject s n n' m m' w' h (hms m (by simp)) hm' hw']
      by_cases hn : n' = n <;> by_cases hw : w' < 6 <;> by_cases h1 : m' = m <;> by_cases h2 : m' ∈ ms <;>
        simp [hn, hw, h1, h2]

theorem State.releaseAll_wf (s : State) (n : NodeId) (h : s.mbx.wf) : (s.releaseAll n).mbx.wf :=
  (State.clearObjects_spec n (List.range s.params.nMbx) s h).1

/-- Every word of every object of the node reads 0, every other node's words as before (R192). -/
theorem State.mbxRead_releaseAll (s : State) (n n' : NodeId) (m' w' : Nat) (h : s.mbx.wf) (hp : s.params.nMbx ≤ 32)
    (hm' : m' < 32) (hw' : w' < 8) :
    (s.releaseAll n).mbxRead n' m' w' =
      if n' = n ∧ m' < s.params.nMbx ∧ w' < 6 then 0 else s.mbxRead n' m' w' := by
  have := (State.clearObjects_spec n (List.range s.params.nMbx) s h).2.2
    (fun m hm => by have := List.mem_range.mp hm; omega) n' m' w' hm' hw'
  simp only [List.mem_range] at this
  exact this

/-- Clearing objects touches the memory only. -/
theorem State.clearObjects_eq (n : NodeId) (ms : List Nat) (s : State) :
    ms.foldl (fun t m => t.clearObject n m) s =
      s.withMbx (ms.foldl (fun t m => t.clearObject n m) s).mbx := by
  induction ms generalizing s with
  | nil => rfl
  | cons m ms ih =>
    rw [List.foldl_cons, ih, State.clearObject_eq s n m, State.withMbx_withMbx, State.withMbx_mbx]

/-- The memory aside, only the node's bitmaps change (R192). -/
theorem State.releaseAll_eq (s : State) (n : NodeId) :
    s.releaseAll n =
      (s.setNode n { s.node n with nalloc := 0, ndir := 0, nbusy := 0 }).withMbx (s.releaseAll n).mbx := by
  unfold State.releaseAll
  dsimp only
  rw [State.clearObjects_eq, State.setNode_mbx, State.withMbx_mbx]
  generalize ((List.range s.params.nMbx).foldl (fun t m => t.clearObject n m) s).mbx = mem
  rfl

/-- The release of a pool clears the node's three bitmaps and no other node register (R192). -/
theorem State.node_releaseAll (s : State) (n k : NodeId) :
    (s.releaseAll n).node k =
      if k = n then { s.node n with nalloc := 0, ndir := 0, nbusy := 0 } else s.node k := by
  rw [State.releaseAll_eq]
  exact State.node_setNode s n k _

/-- The loop of a completed recovery over a list of indices: what it keeps, and what it does to the node (R218). -/
theorem State.idleLoop_spec (n : NodeId) (ms : List Nat) (s : State) (h : s.mbx.wf) :
    let t := ms.foldl (fun t m => if bitmapGet (t.node n).ndir m then t.setMoBusy n m false else t) s
    t.mbx.wf ∧ { t with mbx := s.mbx, nodes := s.nodes } = s ∧
    (∀ n', n' ≠ n → t.node n' = s.node n') ∧
    t.node n = { s.node n with nbusy := (t.node n).nbusy } ∧
    ((∀ m ∈ ms, m < 32) →
      (∀ k < 32, bitmapGet (t.node n).nbusy k =
        if k ∈ ms ∧ bitmapGet (s.node n).ndir k = true then false else bitmapGet (s.node n).nbusy k) ∧
      ∀ (n' : NodeId) (m' w' : Nat), m' < 32 → w' < 8 →
        t.mbxRead n' m' w' =
          if n' = n ∧ m' ∈ ms ∧ w' = 0 ∧ bitmapGet (s.node n).ndir m' = true then moSetBusy (s.moctrl n m') false
          else s.mbxRead n' m' w') := by
  induction ms generalizing s with
  | nil => exact ⟨h, rfl, fun _ _ => rfl, rfl, by simp⟩
  | cons m ms ih =>
    by_cases hd : bitmapGet (s.node n).ndir m = true
    · obtain ⟨i1, i2, i3, i4, i5⟩ := ih (s.setMoBusy n m false) (State.setMoBusy_wf s n m false h)
      have hf : List.foldl (fun t m => if bitmapGet (t.node n).ndir m then t.setMoBusy n m false else t) s (m :: ms) =
          List.foldl (fun t m => if bitmapGet (t.node n).ndir m then t.setMoBusy n m false else t)
            (s.setMoBusy n m false) ms := by simp [hd]
      simp only [hf]
      have hn : (s.setMoBusy n m false).node n = { s.node n with nbusy := bitmapSet (s.node n).nbusy m false } := by
        rw [State.node_setMoBusy, if_pos rfl]
      refine ⟨i1, ?_, ?_, ?_, ?_⟩
      · have := congrArg (fun u : State => { u with mbx := s.mbx, nodes := s.nodes }) i2
        exact this
      · intro n' hne
        rw [i3 n' hne, State.node_setMoBusy, if_neg hne]
      · rw [i4, hn]
      · intro hms
        have hm32 : m < 32 := hms m (by simp)
        obtain ⟨j1, j2⟩ := i5 fun x hx => hms x (by simp [hx])
        refine ⟨fun k hk => ?_, fun n' m' w' hm' hw' => ?_⟩
        · rw [j1 k hk, hn]
          simp only [bitmapGet_bitmapSet _ _ _ _ hm32, List.mem_cons]
          by_cases hkm : k = m <;> by_cases hks : k ∈ ms <;> simp [hkm, hks, hd]
        · rw [j2 n' m' w' hm' hw', hn, State.mbxRead_setMoBusy s n n' m m' w' false h hm32 hm' hw']
          simp only [List.mem_cons, State.moctrl]
          rw [State.mbxRead_setMoBusy s n n m m' 0 false h hm32 hm' (by omega)]
          by_cases h1 : n' = n
          · subst h1
            by_cases h2 : m' = m
            · subst h2
              by_cases h3 : w' = 0
              · subst h3
                have : moSetBusy (moSetBusy (s.mbxRead n' m' 0) false) false = moSetBusy (s.mbxRead n' m' 0) false := by
                  apply BitVec.eq_of_getLsbD_eq
                  intro i _
                  have e : ∀ x : Word, (moSetBusy x false).getLsbD i = if i = 4 then false else x.getLsbD i :=
                    fun x => bitmapGet_bitmapSet x 4 i false (by omega)
                  rw [e, e]; split <;> rfl
                by_cases h4 : m' ∈ ms <;> simp [h4, hd, State.moctrl, this]
              · simp [h3]
            · simp [h2]
          · simp [h1]
    · obtain ⟨i1, i2, i3, i4, i5⟩ := ih s h
      have hf : List.foldl (fun t m => if bitmapGet (t.node n).ndir m then t.setMoBusy n m false else t) s (m :: ms) =
          List.foldl (fun t m => if bitmapGet (t.node n).ndir m then t.setMoBusy n m false else t) s ms := by
        simp [hd]
      simp only [hf]
      refine ⟨i1, i2, i3, i4, fun hms => ?_⟩
      obtain ⟨j1, j2⟩ := i5 fun x hx => hms x (by simp [hx])
      refine ⟨fun k hk => ?_, fun n' m' w' hm' hw' => ?_⟩
      · rw [j1 k hk]
        by_cases hkm : k = m
        · subst hkm; simp [hd]
        · simp [hkm]
      · rw [j2 n' m' w' hm' hw']
        by_cases hkm : m' = m
        · subst hkm; simp [hd]
        · simp [hkm]

/-- A completed recovery's loop touches the memory and the node's `NBUSY` only. -/
theorem State.idleTransmits_eq (s : State) (n : NodeId) :
    s.idleTransmits n =
      (s.setNode n { s.node n with nbusy := ((s.idleTransmits n).node n).nbusy }).withMbx (s.idleTransmits n).mbx := by
  have loop : ∀ (ms : List Nat) (t : State), ∃ (b : Word) (mem : Memory),
      ms.foldl (fun t m => if bitmapGet (t.node n).ndir m then t.setMoBusy n m false else t) t =
        (t.withMbx mem).setNode n { t.node n with nbusy := b } := by
    intro ms
    induction ms with
    | nil => intro t; exact ⟨(t.node n).nbusy, t.mbx, (State.setNode_self t n).symm⟩
    | cons m ms ih =>
      intro t
      rw [List.foldl_cons]
      split
      · obtain ⟨b, mem, e⟩ := ih (t.setMoBusy n m false)
        refine ⟨b, mem, ?_⟩
        rw [e, State.node_setMoBusy, if_pos rfl]
        exact State.setNode_setNode (t.withMbx mem) n _ _
      · exact ih t
  obtain ⟨b, mem, e⟩ := loop (List.range s.params.nMbx) s
  have e' : s.idleTransmits n = (s.withMbx mem).setNode n { s.node n with nbusy := b } := e
  rw [e', State.node_setNode, if_pos rfl]
  rfl

/-- A completed recovery's loop changes no node register but the node's `NBUSY` (R218). -/
theorem State.node_idleTransmits (s : State) (n k : NodeId) :
    (s.idleTransmits n).node k =
      if k = n then { s.node n with nbusy := ((s.idleTransmits n).node n).nbusy } else s.node k := by
  have h := congrArg (fun t : State => t.node k) (State.idleTransmits_eq s n)
  exact h.trans (State.node_setNode s n k _)

theorem State.idleTransmits_wf (s : State) (n : NodeId) (h : s.mbx.wf) : (s.idleTransmits n).mbx.wf :=
  (State.idleLoop_spec n (List.range s.params.nMbx) s h).1

/-! ### Frames of the mailbox memory, address by address -/

theorem State.read_mbxWrite_other (s : State) (n : NodeId) (m w : Nat) (v : Word) (a : Nat) (h : a ≠ moAddr n m w) :
    (s.mbxWrite n m w v).mbx.read a = s.mbx.read a :=
  Memory.read_write_other _ _ _ _ h

theorem State.read_setMoBusy_other (s : State) (n : NodeId) (m : Nat) (v : Bool) (a : Nat) (h : a ≠ moAddr n m 0) :
    (s.setMoBusy n m v).mbx.read a = s.mbx.read a :=
  Memory.read_write_other _ _ _ _ h

theorem State.read_storeFrame_other (s : State) (n : NodeId) (m : Nat) (dlc : BitVec 4) (rtr ide : Bool)
    (id dl dh : Word) (a : Nat) (h : ∀ w < 6, a ≠ moAddr n m w) :
    (s.storeFrame n m dlc rtr ide id dl dh).mbx.read a = s.mbx.read a := by
  simp only [State.storeFrame, State.setNode_mbx]
  rw [State.read_mbxWrite_other _ _ _ _ _ _ (h 5 (by omega)), State.read_mbxWrite_other _ _ _ _ _ _ (h 4 (by omega)),
    State.read_mbxWrite_other _ _ _ _ _ _ (h 1 (by omega)), State.read_mbxWrite_other _ _ _ _ _ _ (h 0 (by omega))]

theorem State.read_clearWords_other (s : State) (n : NodeId) (m : Nat) (ws : List Nat) (a : Nat)
    (h : ∀ w ∈ ws, a ≠ moAddr n m w) :
    (ws.foldl (fun t w => t.mbxWrite n m w 0) s).mbx.read a = s.mbx.read a := by
  induction ws generalizing s with
  | nil => rfl
  | cons w ws ih =>
    simp only [List.foldl_cons]
    rw [ih _ fun x hx => h x (by simp [hx]), State.read_mbxWrite_other _ _ _ _ _ _ (h w (by simp))]

theorem State.read_clearObject_other (s : State) (n : NodeId) (m a : Nat) (h : ∀ w < 6, a ≠ moAddr n m w) :
    (s.clearObject n m).mbx.read a = s.mbx.read a :=
  State.read_clearWords_other s n m _ a fun w hw => h w (List.mem_range.mp hw)

theorem State.read_releaseAll_other (s : State) (n : NodeId) (a : Nat)
    (h : ∀ m < s.params.nMbx, ∀ w < 6, a ≠ moAddr n m w) : (s.releaseAll n).mbx.read a = s.mbx.read a := by
  have loop : ∀ (ms : List Nat) (t : State), (∀ m ∈ ms, ∀ w < 6, a ≠ moAddr n m w) →
      (ms.foldl (fun t m => t.clearObject n m) t).mbx.read a = t.mbx.read a := by
    intro ms
    induction ms with
    | nil => intros; rfl
    | cons m ms ih =>
      intro t ht
      simp only [List.foldl_cons]
      rw [ih _ fun x hx => ht x (by simp [hx]), State.read_clearObject_other _ _ _ _ (ht m (by simp))]
  exact loop _ s fun m hm => h m (List.mem_range.mp hm)

theorem State.read_idleTransmits_other (s : State) (n : NodeId) (a : Nat)
    (h : ∀ m < s.params.nMbx, a ≠ moAddr n m 0) : (s.idleTransmits n).mbx.read a = s.mbx.read a := by
  have loop : ∀ (ms : List Nat) (t : State), (∀ m ∈ ms, a ≠ moAddr n m 0) →
      (ms.foldl (fun t m => if bitmapGet (t.node n).ndir m then t.setMoBusy n m false else t) t).mbx.read a =
        t.mbx.read a := by
    intro ms
    induction ms with
    | nil => intros; rfl
    | cons m ms ih =>
      intro t ht
      simp only [List.foldl_cons]
      rw [ih _ fun x hx => ht x (by simp [hx])]
      split
      · exact State.read_setMoBusy_other _ _ _ _ _ (ht m (by simp))
      · rfl
  exact loop _ s fun m hm => h m (List.mem_range.mp hm)

/-! ### Reset -/

/-- The memory right after reset is in canonical form. -/
theorem State.reset_mbx_wf : State.reset.mbx.wf := ⟨List.Pairwise.nil, by simp [State.reset, State.resetWith]⟩

theorem State.resetBlock_mbx_wf (s : State) : s.resetBlock.mbx.wf :=
  ⟨List.Pairwise.nil, by simp [State.resetBlock, State.resetWith]⟩

end Sys2Proof.Machine
end

