-- ==== Sys2Proof/Laws/Fields.lean ====
section
/-! SUPPORT. The fields a named operation leaves alone, one lemma each, so that no proof unfolds the operation for them. -/

namespace Sys2Proof.Machine

variable (s : State)

/-! ### `withMbx` -/

@[simp] theorem State.withMbx_bank0 (mem : Memory) :
    (s.withMbx mem).bank0 = s.bank0 := rfl

@[simp] theorem State.withMbx_bank1 (mem : Memory) :
    (s.withMbx mem).bank1 = s.bank1 := rfl

@[simp] theorem State.withMbx_prot (mem : Memory) :
    (s.withMbx mem).prot = s.prot := rfl

@[simp] theorem State.withMbx_faultReg (mem : Memory) :
    (s.withMbx mem).faultReg = s.faultReg := rfl

@[simp] theorem State.withMbx_pllstat (mem : Memory) :
    (s.withMbx mem).pllstat = s.pllstat := rfl

@[simp] theorem State.withMbx_oscfreq (mem : Memory) :
    (s.withMbx mem).oscfreq = s.oscfreq := rfl

@[simp] theorem State.withMbx_pllcon (mem : Memory) :
    (s.withMbx mem).pllcon = s.pllcon := rfl

@[simp] theorem State.withMbx_ccucon (mem : Memory) :
    (s.withMbx mem).ccucon = s.ccucon := rfl

@[simp] theorem State.withMbx_clken (mem : Memory) :
    (s.withMbx mem).clken = s.clken := rfl

@[simp] theorem State.withMbx_fpll (mem : Memory) :
    (s.withMbx mem).fpll = s.fpll := rfl

@[simp] theorem State.withMbx_freqCore (mem : Memory) :
    (s.withMbx mem).freqCore = s.freqCore := rfl

@[simp] theorem State.withMbx_freqPeriph (mem : Memory) :
    (s.withMbx mem).freqPeriph = s.freqPeriph := rfl

@[simp] theorem State.withMbx_freqCan (mem : Memory) :
    (s.withMbx mem).freqCan = s.freqCan := rfl

@[simp] theorem State.withMbx_nodes (mem : Memory) :
    (s.withMbx mem).nodes = s.nodes := rfl

@[simp] theorem State.withMbx_params (mem : Memory) :
    (s.withMbx mem).params = s.params := rfl

@[simp] theorem State.withMbx_schedule (mem : Memory) :
    (s.withMbx mem).schedule = s.schedule := rfl

@[simp] theorem State.withMbx_issuer (mem : Memory) :
    (s.withMbx mem).issuer = s.issuer := rfl

@[simp] theorem State.withMbx_readData (mem : Memory) :
    (s.withMbx mem).readData = s.readData := rfl

@[simp] theorem State.withMbx_ignoredCmd (mem : Memory) :
    (s.withMbx mem).ignoredCmd = s.ignoredCmd := rfl

@[simp] theorem State.bank_withMbx (mem : Memory) (c : BankId) :
    (s.withMbx mem).bank c = s.bank c := State.bank_congr c (by simp) (by simp)

@[simp] theorem State.cur_withMbx (mem : Memory) :
    (s.withMbx mem).cur = s.cur := by simp [State.cur]

@[simp] theorem State.node_withMbx (mem : Memory) (k : NodeId) :
    (s.withMbx mem).node k = s.node k := State.node_congr k (by simp)

/-! ### `setBitmaps` -/

@[simp] theorem State.setBitmaps_bank0 (n : NodeId) (m : Nat) (a d b : Bool) :
    (s.setBitmaps n m a d b).bank0 = s.bank0 := by simp [State.setBitmaps]

@[simp] theorem State.setBitmaps_bank1 (n : NodeId) (m : Nat) (a d b : Bool) :
    (s.setBitmaps n m a d b).bank1 = s.bank1 := by simp [State.setBitmaps]

@[simp] theorem State.setBitmaps_prot (n : NodeId) (m : Nat) (a d b : Bool) :
    (s.setBitmaps n m a d b).prot = s.prot := by simp [State.setBitmaps]

@[simp] theorem State.setBitmaps_faultReg (n : NodeId) (m : Nat) (a d b : Bool) :
    (s.setBitmaps n m a d b).faultReg = s.faultReg := by simp [State.setBitmaps]

@[simp] theorem State.setBitmaps_pllstat (n : NodeId) (m : Nat) (a d b : Bool) :
    (s.setBitmaps n m a d b).pllstat = s.pllstat := by simp [State.setBitmaps]

@[simp] theorem State.setBitmaps_oscfreq (n : NodeId) (m : Nat) (a d b : Bool) :
    (s.setBitmaps n m a d b).oscfreq = s.oscfreq := by simp [State.setBitmaps]

@[simp] theorem State.setBitmaps_pllcon (n : NodeId) (m : Nat) (a d b : Bool) :
    (s.setBitmaps n m a d b).pllcon = s.pllcon := by simp [State.setBitmaps]

@[simp] theorem State.setBitmaps_ccucon (n : NodeId) (m : Nat) (a d b : Bool) :
    (s.setBitmaps n m a d b).ccucon = s.ccucon := by simp [State.setBitmaps]

@[simp] theorem State.setBitmaps_clken (n : NodeId) (m : Nat) (a d b : Bool) :
    (s.setBitmaps n m a d b).clken = s.clken := by simp [State.setBitmaps]

@[simp] theorem State.setBitmaps_fpll (n : NodeId) (m : Nat) (a d b : Bool) :
    (s.setBitmaps n m a d b).fpll = s.fpll := by simp [State.setBitmaps]

@[simp] theorem State.setBitmaps_freqCore (n : NodeId) (m : Nat) (a d b : Bool) :
    (s.setBitmaps n m a d b).freqCore = s.freqCore := by simp [State.setBitmaps]

@[simp] theorem State.setBitmaps_freqPeriph (n : NodeId) (m : Nat) (a d b : Bool) :
    (s.setBitmaps n m a d b).freqPeriph = s.freqPeriph := by simp [State.setBitmaps]

@[simp] theorem State.setBitmaps_freqCan (n : NodeId) (m : Nat) (a d b : Bool) :
    (s.setBitmaps n m a d b).freqCan = s.freqCan := by simp [State.setBitmaps]

@[simp] theorem State.setBitmaps_mbx (n : NodeId) (m : Nat) (a d b : Bool) :
    (s.setBitmaps n m a d b).mbx = s.mbx := by simp [State.setBitmaps]

@[simp] theorem State.setBitmaps_params (n : NodeId) (m : Nat) (a d b : Bool) :
    (s.setBitmaps n m a d b).params = s.params := by simp [State.setBitmaps]

@[simp] theorem State.setBitmaps_schedule (n : NodeId) (m : Nat) (a d b : Bool) :
    (s.setBitmaps n m a d b).schedule = s.schedule := by simp [State.setBitmaps]

@[simp] theorem State.setBitmaps_issuer (n : NodeId) (m : Nat) (a d b : Bool) :
    (s.setBitmaps n m a d b).issuer = s.issuer := by simp [State.setBitmaps]

@[simp] theorem State.setBitmaps_readData (n : NodeId) (m : Nat) (a d b : Bool) :
    (s.setBitmaps n m a d b).readData = s.readData := by simp [State.setBitmaps]

@[simp] theorem State.setBitmaps_ignoredCmd (n : NodeId) (m : Nat) (a d b : Bool) :
    (s.setBitmaps n m a d b).ignoredCmd = s.ignoredCmd := by simp [State.setBitmaps]

@[simp] theorem State.bank_setBitmaps (n : NodeId) (m : Nat) (a d b : Bool) (c : BankId) :
    (s.setBitmaps n m a d b).bank c = s.bank c := State.bank_congr c (by simp) (by simp)

@[simp] theorem State.cur_setBitmaps (n : NodeId) (m : Nat) (a d b : Bool) :
    (s.setBitmaps n m a d b).cur = s.cur := by simp [State.cur]

@[simp] theorem State.mbxRead_setBitmaps (n : NodeId) (m : Nat) (a d b : Bool) (k : NodeId) (i w' : Nat) :
    (s.setBitmaps n m a d b).mbxRead k i w' = s.mbxRead k i w' := State.mbxRead_congr k (by simp) i w'

/-! ### `setMoBusy` -/

@[simp] theorem State.setMoBusy_bank0 (n : NodeId) (m : Nat) (v : Bool) :
    (s.setMoBusy n m v).bank0 = s.bank0 := by simp [State.setMoBusy]

@[simp] theorem State.setMoBusy_bank1 (n : NodeId) (m : Nat) (v : Bool) :
    (s.setMoBusy n m v).bank1 = s.bank1 := by simp [State.setMoBusy]

@[simp] theorem State.setMoBusy_prot (n : NodeId) (m : Nat) (v : Bool) :
    (s.setMoBusy n m v).prot = s.prot := by simp [State.setMoBusy]

@[simp] theorem State.setMoBusy_faultReg (n : NodeId) (m : Nat) (v : Bool) :
    (s.setMoBusy n m v).faultReg = s.faultReg := by simp [State.setMoBusy]

@[simp] theorem State.setMoBusy_pllstat (n : NodeId) (m : Nat) (v : Bool) :
    (s.setMoBusy n m v).pllstat = s.pllstat := by simp [State.setMoBusy]

@[simp] theorem State.setMoBusy_oscfreq (n : NodeId) (m : Nat) (v : Bool) :
    (s.setMoBusy n m v).oscfreq = s.oscfreq := by simp [State.setMoBusy]

@[simp] theorem State.setMoBusy_pllcon (n : NodeId) (m : Nat) (v : Bool) :
    (s.setMoBusy n m v).pllcon = s.pllcon := by simp [State.setMoBusy]

@[simp] theorem State.setMoBusy_ccucon (n : NodeId) (m : Nat) (v : Bool) :
    (s.setMoBusy n m v).ccucon = s.ccucon := by simp [State.setMoBusy]

@[simp] theorem State.setMoBusy_clken (n : NodeId) (m : Nat) (v : Bool) :
    (s.setMoBusy n m v).clken = s.clken := by simp [State.setMoBusy]

@[simp] theorem State.setMoBusy_fpll (n : NodeId) (m : Nat) (v : Bool) :
    (s.setMoBusy n m v).fpll = s.fpll := by simp [State.setMoBusy]

@[simp] theorem State.setMoBusy_freqCore (n : NodeId) (m : Nat) (v : Bool) :
    (s.setMoBusy n m v).freqCore = s.freqCore := by simp [State.setMoBusy]

@[simp] theorem State.setMoBusy_freqPeriph (n : NodeId) (m : Nat) (v : Bool) :
    (s.setMoBusy n m v).freqPeriph = s.freqPeriph := by simp [State.setMoBusy]

@[simp] theorem State.setMoBusy_freqCan (n : NodeId) (m : Nat) (v : Bool) :
    (s.setMoBusy n m v).freqCan = s.freqCan := by simp [State.setMoBusy]

@[simp] theorem State.setMoBusy_params (n : NodeId) (m : Nat) (v : Bool) :
    (s.setMoBusy n m v).params = s.params := by simp [State.setMoBusy]

@[simp] theorem State.setMoBusy_schedule (n : NodeId) (m : Nat) (v : Bool) :
    (s.setMoBusy n m v).schedule = s.schedule := by simp [State.setMoBusy]

@[simp] theorem State.setMoBusy_issuer (n : NodeId) (m : Nat) (v : Bool) :
    (s.setMoBusy n m v).issuer = s.issuer := by simp [State.setMoBusy]

@[simp] theorem State.setMoBusy_readData (n : NodeId) (m : Nat) (v : Bool) :
    (s.setMoBusy n m v).readData = s.readData := by simp [State.setMoBusy]

@[simp] theorem State.setMoBusy_ignoredCmd (n : NodeId) (m : Nat) (v : Bool) :
    (s.setMoBusy n m v).ignoredCmd = s.ignoredCmd := by simp [State.setMoBusy]

@[simp] theorem State.bank_setMoBusy (n : NodeId) (m : Nat) (v : Bool) (c : BankId) :
    (s.setMoBusy n m v).bank c = s.bank c := State.bank_congr c (by simp) (by simp)

@[simp] theorem State.cur_setMoBusy (n : NodeId) (m : Nat) (v : Bool) :
    (s.setMoBusy n m v).cur = s.cur := by simp [State.cur]

/-! ### `storeFrame` -/

@[simp] theorem State.storeFrame_bank0 (n : NodeId) (m : Nat) (dlc : BitVec 4) (rtr ide : Bool) (id dl dh : Word) :
    (s.storeFrame n m dlc rtr ide id dl dh).bank0 = s.bank0 := by simp [State.storeFrame]

@[simp] theorem State.storeFrame_bank1 (n : NodeId) (m : Nat) (dlc : BitVec 4) (rtr ide : Bool) (id dl dh : Word) :
    (s.storeFrame n m dlc rtr ide id dl dh).bank1 = s.bank1 := by simp [State.storeFrame]

@[simp] theorem State.storeFrame_prot (n : NodeId) (m : Nat) (dlc : BitVec 4) (rtr ide : Bool) (id dl dh : Word) :
    (s.storeFrame n m dlc rtr ide id dl dh).prot = s.prot := by simp [State.storeFrame]

@[simp] theorem State.storeFrame_faultReg (n : NodeId) (m : Nat) (dlc : BitVec 4) (rtr ide : Bool) (id dl dh : Word) :
    (s.storeFrame n m dlc rtr ide id dl dh).faultReg = s.faultReg := by simp [State.storeFrame]

@[simp] theorem State.storeFrame_pllstat (n : NodeId) (m : Nat) (dlc : BitVec 4) (rtr ide : Bool) (id dl dh : Word) :
    (s.storeFrame n m dlc rtr ide id dl dh).pllstat = s.pllstat := by simp [State.storeFrame]

@[simp] theorem State.storeFrame_oscfreq (n : NodeId) (m : Nat) (dlc : BitVec 4) (rtr ide : Bool) (id dl dh : Word) :
    (s.storeFrame n m dlc rtr ide id dl dh).oscfreq = s.oscfreq := by simp [State.storeFrame]

@[simp] theorem State.storeFrame_pllcon (n : NodeId) (m : Nat) (dlc : BitVec 4) (rtr ide : Bool) (id dl dh : Word) :
    (s.storeFrame n m dlc rtr ide id dl dh).pllcon = s.pllcon := by simp [State.storeFrame]

@[simp] theorem State.storeFrame_ccucon (n : NodeId) (m : Nat) (dlc : BitVec 4) (rtr ide : Bool) (id dl dh : Word) :
    (s.storeFrame n m dlc rtr ide id dl dh).ccucon = s.ccucon := by simp [State.storeFrame]

@[simp] theorem State.storeFrame_clken (n : NodeId) (m : Nat) (dlc : BitVec 4) (rtr ide : Bool) (id dl dh : Word) :
    (s.storeFrame n m dlc rtr ide id dl dh).clken = s.clken := by simp [State.storeFrame]

@[simp] theorem State.storeFrame_fpll (n : NodeId) (m : Nat) (dlc : BitVec 4) (rtr ide : Bool) (id dl dh : Word) :
    (s.storeFrame n m dlc rtr ide id dl dh).fpll = s.fpll := by simp [State.storeFrame]

@[simp] theorem State.storeFrame_freqCore (n : NodeId) (m : Nat) (dlc : BitVec 4) (rtr ide : Bool) (id dl dh : Word) :
    (s.storeFrame n m dlc rtr ide id dl dh).freqCore = s.freqCore := by simp [State.storeFrame]

@[simp] theorem State.storeFrame_freqPeriph (n : NodeId) (m : Nat) (dlc : BitVec 4) (rtr ide : Bool) (id dl dh : Word) :
    (s.storeFrame n m dlc rtr ide id dl dh).freqPeriph = s.freqPeriph := by simp [State.storeFrame]

@[simp] theorem State.storeFrame_freqCan (n : NodeId) (m : Nat) (dlc : BitVec 4) (rtr ide : Bool) (id dl dh : Word) :
    (s.storeFrame n m dlc rtr ide id dl dh).freqCan = s.freqCan := by simp [State.storeFrame]

@[simp] theorem State.storeFrame_params (n : NodeId) (m : Nat) (dlc : BitVec 4) (rtr ide : Bool) (id dl dh : Word) :
    (s.storeFrame n m dlc rtr ide id dl dh).params = s.params := by simp [State.storeFrame]

@[simp] theorem State.storeFrame_schedule (n : NodeId) (m : Nat) (dlc : BitVec 4) (rtr ide : Bool) (id dl dh : Word) :
    (s.storeFrame n m dlc rtr ide id dl dh).schedule = s.schedule := by simp [State.storeFrame]

@[simp] theorem State.storeFrame_issuer (n : NodeId) (m : Nat) (dlc : BitVec 4) (rtr ide : Bool) (id dl dh : Word) :
    (s.storeFrame n m dlc rtr ide id dl dh).issuer = s.issuer := by simp [State.storeFrame]

@[simp] theorem State.storeFrame_readData (n : NodeId) (m : Nat) (dlc : BitVec 4) (rtr ide : Bool) (id dl dh : Word) :
    (s.storeFrame n m dlc rtr ide id dl dh).readData = s.readData := by simp [State.storeFrame]

@[simp] theorem State.storeFrame_ignoredCmd (n : NodeId) (m : Nat) (dlc : BitVec 4) (rtr ide : Bool) (id dl dh : Word) :
    (s.storeFrame n m dlc rtr ide id dl dh).ignoredCmd = s.ignoredCmd := by simp [State.storeFrame]

@[simp] theorem State.bank_storeFrame (n : NodeId) (m : Nat) (dlc : BitVec 4) (rtr ide : Bool) (id dl dh : Word) (c : BankId) :
    (s.storeFrame n m dlc rtr ide id dl dh).bank c = s.bank c := State.bank_congr c (by simp) (by simp)

@[simp] theorem State.cur_storeFrame (n : NodeId) (m : Nat) (dlc : BitVec 4) (rtr ide : Bool) (id dl dh : Word) :
    (s.storeFrame n m dlc rtr ide id dl dh).cur = s.cur := by simp [State.cur]

/-! ### `releaseAll` -/

@[simp] theorem State.releaseAll_bank0 (n : NodeId) :
    (s.releaseAll n).bank0 = s.bank0 := by rw [State.releaseAll_eq, State.withMbx_bank0, State.setNode_bank0]

@[simp] theorem State.releaseAll_bank1 (n : NodeId) :
    (s.releaseAll n).bank1 = s.bank1 := by rw [State.releaseAll_eq, State.withMbx_bank1, State.setNode_bank1]

@[simp] theorem State.releaseAll_prot (n : NodeId) :
    (s.releaseAll n).prot = s.prot := by rw [State.releaseAll_eq, State.withMbx_prot, State.setNode_prot]

@[simp] theorem State.releaseAll_faultReg (n : NodeId) :
    (s.releaseAll n).faultReg = s.faultReg := by rw [State.releaseAll_eq, State.withMbx_faultReg, State.setNode_faultReg]

@[simp] theorem State.releaseAll_pllstat (n : NodeId) :
    (s.releaseAll n).pllstat = s.pllstat := by rw [State.releaseAll_eq, State.withMbx_pllstat, State.setNode_pllstat]

@[simp] theorem State.releaseAll_oscfreq (n : NodeId) :
    (s.releaseAll n).oscfreq = s.oscfreq := by rw [State.releaseAll_eq, State.withMbx_oscfreq, State.setNode_oscfreq]

@[simp] theorem State.releaseAll_pllcon (n : NodeId) :
    (s.releaseAll n).pllcon = s.pllcon := by rw [State.releaseAll_eq, State.withMbx_pllcon, State.setNode_pllcon]

@[simp] theorem State.releaseAll_ccucon (n : NodeId) :
    (s.releaseAll n).ccucon = s.ccucon := by rw [State.releaseAll_eq, State.withMbx_ccucon, State.setNode_ccucon]

@[simp] theorem State.releaseAll_clken (n : NodeId) :
    (s.releaseAll n).clken = s.clken := by rw [State.releaseAll_eq, State.withMbx_clken, State.setNode_clken]

@[simp] theorem State.releaseAll_fpll (n : NodeId) :
    (s.releaseAll n).fpll = s.fpll := by rw [State.releaseAll_eq, State.withMbx_fpll, State.setNode_fpll]

@[simp] theorem State.releaseAll_freqCore (n : NodeId) :
    (s.releaseAll n).freqCore = s.freqCore := by rw [State.releaseAll_eq, State.withMbx_freqCore, State.setNode_freqCore]

@[simp] theorem State.releaseAll_freqPeriph (n : NodeId) :
    (s.releaseAll n).freqPeriph = s.freqPeriph := by rw [State.releaseAll_eq, State.withMbx_freqPeriph, State.setNode_freqPeriph]

@[simp] theorem State.releaseAll_freqCan (n : NodeId) :
    (s.releaseAll n).freqCan = s.freqCan := by rw [State.releaseAll_eq, State.withMbx_freqCan, State.setNode_freqCan]

@[simp] theorem State.releaseAll_params (n : NodeId) :
    (s.releaseAll n).params = s.params := by rw [State.releaseAll_eq, State.withMbx_params, State.setNode_params]

@[simp] theorem State.releaseAll_schedule (n : NodeId) :
    (s.releaseAll n).schedule = s.schedule := by rw [State.releaseAll_eq, State.withMbx_schedule, State.setNode_schedule]

@[simp] theorem State.releaseAll_issuer (n : NodeId) :
    (s.releaseAll n).issuer = s.issuer := by rw [State.releaseAll_eq, State.withMbx_issuer, State.setNode_issuer]

@[simp] theorem State.releaseAll_readData (n : NodeId) :
    (s.releaseAll n).readData = s.readData := by rw [State.releaseAll_eq, State.withMbx_readData, State.setNode_readData]

@[simp] theorem State.releaseAll_ignoredCmd (n : NodeId) :
    (s.releaseAll n).ignoredCmd = s.ignoredCmd := by rw [State.releaseAll_eq, State.withMbx_ignoredCmd, State.setNode_ignoredCmd]

@[simp] theorem State.bank_releaseAll (n : NodeId) (c : BankId) :
    (s.releaseAll n).bank c = s.bank c := State.bank_congr c (by simp) (by simp)

@[simp] theorem State.cur_releaseAll (n : NodeId) :
    (s.releaseAll n).cur = s.cur := by simp [State.cur]

/-! ### `idleTransmits` -/

@[simp] theorem State.idleTransmits_bank0 (n : NodeId) :
    (s.idleTransmits n).bank0 = s.bank0 := by rw [State.idleTransmits_eq, State.withMbx_bank0, State.setNode_bank0]

@[simp] theorem State.idleTransmits_bank1 (n : NodeId) :
    (s.idleTransmits n).bank1 = s.bank1 := by rw [State.idleTransmits_eq, State.withMbx_bank1, State.setNode_bank1]

@[simp] theorem State.idleTransmits_prot (n : NodeId) :
    (s.idleTransmits n).prot = s.prot := by rw [State.idleTransmits_eq, State.withMbx_prot, State.setNode_prot]

@[simp] theorem State.idleTransmits_faultReg (n : NodeId) :
    (s.idleTransmits n).faultReg = s.faultReg := by rw [State.idleTransmits_eq, State.withMbx_faultReg, State.setNode_faultReg]

@[simp] theorem State.idleTransmits_pllstat (n : NodeId) :
    (s.idleTransmits n).pllstat = s.pllstat := by rw [State.idleTransmits_eq, State.withMbx_pllstat, State.setNode_pllstat]

@[simp] theorem State.idleTransmits_oscfreq (n : NodeId) :
    (s.idleTransmits n).oscfreq = s.oscfreq := by rw [State.idleTransmits_eq, State.withMbx_oscfreq, State.setNode_oscfreq]

@[simp] theorem State.idleTransmits_pllcon (n : NodeId) :
    (s.idleTransmits n).pllcon = s.pllcon := by rw [State.idleTransmits_eq, State.withMbx_pllcon, State.setNode_pllcon]

@[simp] theorem State.idleTransmits_ccucon (n : NodeId) :
    (s.idleTransmits n).ccucon = s.ccucon := by rw [State.idleTransmits_eq, State.withMbx_ccucon, State.setNode_ccucon]

@[simp] theorem State.idleTransmits_clken (n : NodeId) :
    (s.idleTransmits n).clken = s.clken := by rw [State.idleTransmits_eq, State.withMbx_clken, State.setNode_clken]

@[simp] theorem State.idleTransmits_fpll (n : NodeId) :
    (s.idleTransmits n).fpll = s.fpll := by rw [State.idleTransmits_eq, State.withMbx_fpll, State.setNode_fpll]

@[simp] theorem State.idleTransmits_freqCore (n : NodeId) :
    (s.idleTransmits n).freqCore = s.freqCore := by rw [State.idleTransmits_eq, State.withMbx_freqCore, State.setNode_freqCore]

@[simp] theorem State.idleTransmits_freqPeriph (n : NodeId) :
    (s.idleTransmits n).freqPeriph = s.freqPeriph := by rw [State.idleTransmits_eq, State.withMbx_freqPeriph, State.setNode_freqPeriph]

@[simp] theorem State.idleTransmits_freqCan (n : NodeId) :
    (s.idleTransmits n).freqCan = s.freqCan := by rw [State.idleTransmits_eq, State.withMbx_freqCan, State.setNode_freqCan]

@[simp] theorem State.idleTransmits_params (n : NodeId) :
    (s.idleTransmits n).params = s.params := by rw [State.idleTransmits_eq, State.withMbx_params, State.setNode_params]

@[simp] theorem State.idleTransmits_schedule (n : NodeId) :
    (s.idleTransmits n).schedule = s.schedule := by rw [State.idleTransmits_eq, State.withMbx_schedule, State.setNode_schedule]

@[simp] theorem State.idleTransmits_issuer (n : NodeId) :
    (s.idleTransmits n).issuer = s.issuer := by rw [State.idleTransmits_eq, State.withMbx_issuer, State.setNode_issuer]

@[simp] theorem State.idleTransmits_readData (n : NodeId) :
    (s.idleTransmits n).readData = s.readData := by rw [State.idleTransmits_eq, State.withMbx_readData, State.setNode_readData]

@[simp] theorem State.idleTransmits_ignoredCmd (n : NodeId) :
    (s.idleTransmits n).ignoredCmd = s.ignoredCmd := by rw [State.idleTransmits_eq, State.withMbx_ignoredCmd, State.setNode_ignoredCmd]

@[simp] theorem State.bank_idleTransmits (n : NodeId) (c : BankId) :
    (s.idleTransmits n).bank c = s.bank c := State.bank_congr c (by simp) (by simp)

@[simp] theorem State.cur_idleTransmits (n : NodeId) :
    (s.idleTransmits n).cur = s.cur := by simp [State.cur]

/-! ### `setRecovering` -/

@[simp] theorem State.setRecovering_bank0 (n : NodeId) (v : Bool) :
    (s.setRecovering n v).bank0 = s.bank0 := by simp [State.setRecovering]

@[simp] theorem State.setRecovering_bank1 (n : NodeId) (v : Bool) :
    (s.setRecovering n v).bank1 = s.bank1 := by simp [State.setRecovering]

@[simp] theorem State.setRecovering_prot (n : NodeId) (v : Bool) :
    (s.setRecovering n v).prot = s.prot := by simp [State.setRecovering]

@[simp] theorem State.setRecovering_faultReg (n : NodeId) (v : Bool) :
    (s.setRecovering n v).faultReg = s.faultReg := by simp [State.setRecovering]

@[simp] theorem State.setRecovering_pllstat (n : NodeId) (v : Bool) :
    (s.setRecovering n v).pllstat = s.pllstat := by simp [State.setRecovering]

@[simp] theorem State.setRecovering_oscfreq (n : NodeId) (v : Bool) :
    (s.setRecovering n v).oscfreq = s.oscfreq := by simp [State.setRecovering]

@[simp] theorem State.setRecovering_pllcon (n : NodeId) (v : Bool) :
    (s.setRecovering n v).pllcon = s.pllcon := by simp [State.setRecovering]

@[simp] theorem State.setRecovering_ccucon (n : NodeId) (v : Bool) :
    (s.setRecovering n v).ccucon = s.ccucon := by simp [State.setRecovering]

@[simp] theorem State.setRecovering_clken (n : NodeId) (v : Bool) :
    (s.setRecovering n v).clken = s.clken := by simp [State.setRecovering]

@[simp] theorem State.setRecovering_fpll (n : NodeId) (v : Bool) :
    (s.setRecovering n v).fpll = s.fpll := by simp [State.setRecovering]

@[simp] theorem State.setRecovering_freqCore (n : NodeId) (v : Bool) :
    (s.setRecovering n v).freqCore = s.freqCore := by simp [State.setRecovering]

@[simp] theorem State.setRecovering_freqPeriph (n : NodeId) (v : Bool) :
    (s.setRecovering n v).freqPeriph = s.freqPeriph := by simp [State.setRecovering]

@[simp] theorem State.setRecovering_freqCan (n : NodeId) (v : Bool) :
    (s.setRecovering n v).freqCan = s.freqCan := by simp [State.setRecovering]

@[simp] theorem State.setRecovering_mbx (n : NodeId) (v : Bool) :
    (s.setRecovering n v).mbx = s.mbx := by simp [State.setRecovering]

@[simp] theorem State.setRecovering_params (n : NodeId) (v : Bool) :
    (s.setRecovering n v).params = s.params := by simp [State.setRecovering]

@[simp] theorem State.setRecovering_schedule (n : NodeId) (v : Bool) :
    (s.setRecovering n v).schedule = s.schedule := by simp [State.setRecovering]

@[simp] theorem State.setRecovering_issuer (n : NodeId) (v : Bool) :
    (s.setRecovering n v).issuer = s.issuer := by simp [State.setRecovering]

@[simp] theorem State.setRecovering_readData (n : NodeId) (v : Bool) :
    (s.setRecovering n v).readData = s.readData := by simp [State.setRecovering]

@[simp] theorem State.setRecovering_ignoredCmd (n : NodeId) (v : Bool) :
    (s.setRecovering n v).ignoredCmd = s.ignoredCmd := by simp [State.setRecovering]

@[simp] theorem State.bank_setRecovering (n : NodeId) (v : Bool) (c : BankId) :
    (s.setRecovering n v).bank c = s.bank c := State.bank_congr c (by simp) (by simp)

@[simp] theorem State.cur_setRecovering (n : NodeId) (v : Bool) :
    (s.setRecovering n v).cur = s.cur := by simp [State.cur]

@[simp] theorem State.mbxRead_setRecovering (n : NodeId) (v : Bool) (k : NodeId) (i w' : Nat) :
    (s.setRecovering n v).mbxRead k i w' = s.mbxRead k i w' := State.mbxRead_congr k (by simp) i w'

/-! ### `setNState` -/

@[simp] theorem State.setNState_bank0 (n : NodeId) (x : NodeState) :
    (s.setNState n x).bank0 = s.bank0 := by simp [State.setNState]

@[simp] theorem State.setNState_bank1 (n : NodeId) (x : NodeState) :
    (s.setNState n x).bank1 = s.bank1 := by simp [State.setNState]

@[simp] theorem State.setNState_prot (n : NodeId) (x : NodeState) :
    (s.setNState n x).prot = s.prot := by simp [State.setNState]

@[simp] theorem State.setNState_faultReg (n : NodeId) (x : NodeState) :
    (s.setNState n x).faultReg = s.faultReg := by simp [State.setNState]

@[simp] theorem State.setNState_pllstat (n : NodeId) (x : NodeState) :
    (s.setNState n x).pllstat = s.pllstat := by simp [State.setNState]

@[simp] theorem State.setNState_oscfreq (n : NodeId) (x : NodeState) :
    (s.setNState n x).oscfreq = s.oscfreq := by simp [State.setNState]

@[simp] theorem State.setNState_pllcon (n : NodeId) (x : NodeState) :
    (s.setNState n x).pllcon = s.pllcon := by simp [State.setNState]

@[simp] theorem State.setNState_ccucon (n : NodeId) (x : NodeState) :
    (s.setNState n x).ccucon = s.ccucon := by simp [State.setNState]

@[simp] theorem State.setNState_clken (n : NodeId) (x : NodeState) :
    (s.setNState n x).clken = s.clken := by simp [State.setNState]

@[simp] theorem State.setNState_fpll (n : NodeId) (x : NodeState) :
    (s.setNState n x).fpll = s.fpll := by simp [State.setNState]

@[simp] theorem State.setNState_freqCore (n : NodeId) (x : NodeState) :
    (s.setNState n x).freqCore = s.freqCore := by simp [State.setNState]

@[simp] theorem State.setNState_freqPeriph (n : NodeId) (x : NodeState) :
    (s.setNState n x).freqPeriph = s.freqPeriph := by simp [State.setNState]

@[simp] theorem State.setNState_freqCan (n : NodeId) (x : NodeState) :
    (s.setNState n x).freqCan = s.freqCan := by simp [State.setNState]

@[simp] theorem State.setNState_mbx (n : NodeId) (x : NodeState) :
    (s.setNState n x).mbx = s.mbx := by simp [State.setNState]

@[simp] theorem State.setNState_params (n : NodeId) (x : NodeState) :
    (s.setNState n x).params = s.params := by simp [State.setNState]

@[simp] theorem State.setNState_schedule (n : NodeId) (x : NodeState) :
    (s.setNState n x).schedule = s.schedule := by simp [State.setNState]

@[simp] theorem State.setNState_issuer (n : NodeId) (x : NodeState) :
    (s.setNState n x).issuer = s.issuer := by simp [State.setNState]

@[simp] theorem State.setNState_readData (n : NodeId) (x : NodeState) :
    (s.setNState n x).readData = s.readData := by simp [State.setNState]

@[simp] theorem State.setNState_ignoredCmd (n : NodeId) (x : NodeState) :
    (s.setNState n x).ignoredCmd = s.ignoredCmd := by simp [State.setNState]

@[simp] theorem State.bank_setNState (n : NodeId) (x : NodeState) (c : BankId) :
    (s.setNState n x).bank c = s.bank c := State.bank_congr c (by simp) (by simp)

@[simp] theorem State.cur_setNState (n : NodeId) (x : NodeState) :
    (s.setNState n x).cur = s.cur := by simp [State.cur]

@[simp] theorem State.mbxRead_setNState (n : NodeId) (x : NodeState) (k : NodeId) (i w' : Nat) :
    (s.setNState n x).mbxRead k i w' = s.mbxRead k i w' := State.mbxRead_congr k (by simp) i w'

/-! ### `acquire` -/

@[simp] theorem State.acquire_bank0 :
    (s.acquire).bank0 = s.bank0 := by simp [State.acquire]

@[simp] theorem State.acquire_bank1 :
    (s.acquire).bank1 = s.bank1 := by simp [State.acquire]

@[simp] theorem State.acquire_faultReg :
    (s.acquire).faultReg = s.faultReg := by simp [State.acquire]

@[simp] theorem State.acquire_pllstat :
    (s.acquire).pllstat = s.pllstat := by simp [State.acquire]

@[simp] theorem State.acquire_oscfreq :
    (s.acquire).oscfreq = s.oscfreq := by simp [State.acquire]

@[simp] theorem State.acquire_pllcon :
    (s.acquire).pllcon = s.pllcon := by simp [State.acquire]

@[simp] theorem State.acquire_ccucon :
    (s.acquire).ccucon = s.ccucon := by simp [State.acquire]

@[simp] theorem State.acquire_clken :
    (s.acquire).clken = s.clken := by simp [State.acquire]

@[simp] theorem State.acquire_fpll :
    (s.acquire).fpll = s.fpll := by simp [State.acquire]

@[simp] theorem State.acquire_freqCore :
    (s.acquire).freqCore = s.freqCore := by simp [State.acquire]

@[simp] theorem State.acquire_freqPeriph :
    (s.acquire).freqPeriph = s.freqPeriph := by simp [State.acquire]

@[simp] theorem State.acquire_freqCan :
    (s.acquire).freqCan = s.freqCan := by simp [State.acquire]

@[simp] theorem State.acquire_nodes :
    (s.acquire).nodes = s.nodes := by simp [State.acquire]

@[simp] theorem State.acquire_mbx :
    (s.acquire).mbx = s.mbx := by simp [State.acquire]

@[simp] theorem State.acquire_params :
    (s.acquire).params = s.params := by simp [State.acquire]

@[simp] theorem State.acquire_schedule :
    (s.acquire).schedule = s.schedule := by simp [State.acquire]

@[simp] theorem State.acquire_issuer :
    (s.acquire).issuer = s.issuer := by simp [State.acquire]

@[simp] theorem State.acquire_readData :
    (s.acquire).readData = s.readData := by simp [State.acquire]

@[simp] theorem State.acquire_ignoredCmd :
    (s.acquire).ignoredCmd = s.ignoredCmd := by simp [State.acquire]

@[simp] theorem State.bank_acquire (c : BankId) :
    (s.acquire).bank c = s.bank c := State.bank_congr c (by simp) (by simp)

@[simp] theorem State.cur_acquire :
    (s.acquire).cur = s.cur := by simp [State.cur]

@[simp] theorem State.node_acquire (k : NodeId) :
    (s.acquire).node k = s.node k := State.node_congr k (by simp)

@[simp] theorem State.mbxRead_acquire (k : NodeId) (i w' : Nat) :
    (s.acquire).mbxRead k i w' = s.mbxRead k i w' := State.mbxRead_congr k (by simp) i w'

/-! ### `release` -/

@[simp] theorem State.release_bank0 :
    (s.release).bank0 = s.bank0 := by simp [State.release]

@[simp] theorem State.release_bank1 :
    (s.release).bank1 = s.bank1 := by simp [State.release]

@[simp] theorem State.release_faultReg :
    (s.release).faultReg = s.faultReg := by simp [State.release]

@[simp] theorem State.release_pllstat :
    (s.release).pllstat = s.pllstat := by simp [State.release]

@[simp] theorem State.release_oscfreq :
    (s.release).oscfreq = s.oscfreq := by simp [State.release]

@[simp] theorem State.release_pllcon :
    (s.release).pllcon = s.pllcon := by simp [State.release]

@[simp] theorem State.release_ccucon :
    (s.release).ccucon = s.ccucon := by simp [State.release]

@[simp] theorem State.release_clken :
    (s.release).clken = s.clken := by simp [State.release]

@[simp] theorem State.release_fpll :
    (s.release).fpll = s.fpll := by simp [State.release]

@[simp] theorem State.release_freqCore :
    (s.release).freqCore = s.freqCore := by simp [State.release]

@[simp] theorem State.release_freqPeriph :
    (s.release).freqPeriph = s.freqPeriph := by simp [State.release]

@[simp] theorem State.release_freqCan :
    (s.release).freqCan = s.freqCan := by simp [State.release]

@[simp] theorem State.release_nodes :
    (s.release).nodes = s.nodes := by simp [State.release]

@[simp] theorem State.release_mbx :
    (s.release).mbx = s.mbx := by simp [State.release]

@[simp] theorem State.release_params :
    (s.release).params = s.params := by simp [State.release]

@[simp] theorem State.release_schedule :
    (s.release).schedule = s.schedule := by simp [State.release]

@[simp] theorem State.release_issuer :
    (s.release).issuer = s.issuer := by simp [State.release]

@[simp] theorem State.release_readData :
    (s.release).readData = s.readData := by simp [State.release]

@[simp] theorem State.release_ignoredCmd :
    (s.release).ignoredCmd = s.ignoredCmd := by simp [State.release]

@[simp] theorem State.bank_release (c : BankId) :
    (s.release).bank c = s.bank c := State.bank_congr c (by simp) (by simp)

@[simp] theorem State.cur_release :
    (s.release).cur = s.cur := by simp [State.cur]

@[simp] theorem State.node_release (k : NodeId) :
    (s.release).node k = s.node k := State.node_congr k (by simp)

@[simp] theorem State.mbxRead_release (k : NodeId) (i w' : Nat) :
    (s.release).mbxRead k i w' = s.mbxRead k i w' := State.mbxRead_congr k (by simp) i w'

/-! ### `takeCommand` -/

@[simp] theorem State.takeCommand_prot (b : BankId) (w : Word) :
    (s.takeCommand b w).prot = s.prot := by simp [State.takeCommand]

@[simp] theorem State.takeCommand_faultReg (b : BankId) (w : Word) :
    (s.takeCommand b w).faultReg = s.faultReg := by simp [State.takeCommand]

@[simp] theorem State.takeCommand_pllstat (b : BankId) (w : Word) :
    (s.takeCommand b w).pllstat = s.pllstat := by simp [State.takeCommand]

@[simp] theorem State.takeCommand_oscfreq (b : BankId) (w : Word) :
    (s.takeCommand b w).oscfreq = s.oscfreq := by simp [State.takeCommand]

@[simp] theorem State.takeCommand_pllcon (b : BankId) (w : Word) :
    (s.takeCommand b w).pllcon = s.pllcon := by simp [State.takeCommand]

@[simp] theorem State.takeCommand_ccucon (b : BankId) (w : Word) :
    (s.takeCommand b w).ccucon = s.ccucon := by simp [State.takeCommand]

@[simp] theorem State.takeCommand_clken (b : BankId) (w : Word) :
    (s.takeCommand b w).clken = s.clken := by simp [State.takeCommand]

@[simp] theorem State.takeCommand_fpll (b : BankId) (w : Word) :
    (s.takeCommand b w).fpll = s.fpll := by simp [State.takeCommand]

@[simp] theorem State.takeCommand_freqCore (b : BankId) (w : Word) :
    (s.takeCommand b w).freqCore = s.freqCore := by simp [State.takeCommand]

@[simp] theorem State.takeCommand_freqPeriph (b : BankId) (w : Word) :
    (s.takeCommand b w).freqPeriph = s.freqPeriph := by simp [State.takeCommand]

@[simp] theorem State.takeCommand_freqCan (b : BankId) (w : Word) :
    (s.takeCommand b w).freqCan = s.freqCan := by simp [State.takeCommand]

@[simp] theorem State.takeCommand_nodes (b : BankId) (w : Word) :
    (s.takeCommand b w).nodes = s.nodes := by simp [State.takeCommand]

@[simp] theorem State.takeCommand_mbx (b : BankId) (w : Word) :
    (s.takeCommand b w).mbx = s.mbx := by simp [State.takeCommand]

@[simp] theorem State.takeCommand_params (b : BankId) (w : Word) :
    (s.takeCommand b w).params = s.params := by simp [State.takeCommand]

@[simp] theorem State.takeCommand_schedule (b : BankId) (w : Word) :
    (s.takeCommand b w).schedule = s.schedule := by simp [State.takeCommand]

@[simp] theorem State.takeCommand_readData (b : BankId) (w : Word) :
    (s.takeCommand b w).readData = s.readData := by simp [State.takeCommand]

@[simp] theorem State.takeCommand_ignoredCmd (b : BankId) (w : Word) :
    (s.takeCommand b w).ignoredCmd = s.ignoredCmd := by simp [State.takeCommand]

@[simp] theorem State.node_takeCommand (b : BankId) (w : Word) (k : NodeId) :
    (s.takeCommand b w).node k = s.node k := State.node_congr k (by simp)

@[simp] theorem State.mbxRead_takeCommand (b : BankId) (w : Word) (k : NodeId) (i w' : Nat) :
    (s.takeCommand b w).mbxRead k i w' = s.mbxRead k i w' := State.mbxRead_congr k (by simp) i w'

/-! ### `applyClock` -/

@[simp] theorem State.applyClock_bank0 (fosc f : Nat) (pnk : PllCon) (tCore tPeriph tCan : Nat) :
    (s.applyClock fosc f pnk tCore tPeriph tCan).bank0 = s.bank0 := by simp [State.applyClock]

@[simp] theorem State.applyClock_bank1 (fosc f : Nat) (pnk : PllCon) (tCore tPeriph tCan : Nat) :
    (s.applyClock fosc f pnk tCore tPeriph tCan).bank1 = s.bank1 := by simp [State.applyClock]

@[simp] theorem State.applyClock_prot (fosc f : Nat) (pnk : PllCon) (tCore tPeriph tCan : Nat) :
    (s.applyClock fosc f pnk tCore tPeriph tCan).prot = s.prot := by simp [State.applyClock]

@[simp] theorem State.applyClock_faultReg (fosc f : Nat) (pnk : PllCon) (tCore tPeriph tCan : Nat) :
    (s.applyClock fosc f pnk tCore tPeriph tCan).faultReg = s.faultReg := by simp [State.applyClock]

@[simp] theorem State.applyClock_clken (fosc f : Nat) (pnk : PllCon) (tCore tPeriph tCan : Nat) :
    (s.applyClock fosc f pnk tCore tPeriph tCan).clken = s.clken := by simp [State.applyClock]

@[simp] theorem State.applyClock_fpll (fosc f : Nat) (pnk : PllCon) (tCore tPeriph tCan : Nat) :
    (s.applyClock fosc f pnk tCore tPeriph tCan).fpll = s.fpll := by simp [State.applyClock]

@[simp] theorem State.applyClock_freqCore (fosc f : Nat) (pnk : PllCon) (tCore tPeriph tCan : Nat) :
    (s.applyClock fosc f pnk tCore tPeriph tCan).freqCore = s.freqCore := by simp [State.applyClock]

@[simp] theorem State.applyClock_freqPeriph (fosc f : Nat) (pnk : PllCon) (tCore tPeriph tCan : Nat) :
    (s.applyClock fosc f pnk tCore tPeriph tCan).freqPeriph = s.freqPeriph := by simp [State.applyClock]

@[simp] theorem State.applyClock_freqCan (fosc f : Nat) (pnk : PllCon) (tCore tPeriph tCan : Nat) :
    (s.applyClock fosc f pnk tCore tPeriph tCan).freqCan = s.freqCan := by simp [State.applyClock]

@[simp] theorem State.applyClock_nodes (fosc f : Nat) (pnk : PllCon) (tCore tPeriph tCan : Nat) :
    (s.applyClock fosc f pnk tCore tPeriph tCan).nodes = s.nodes := by simp [State.applyClock]

@[simp] theorem State.applyClock_mbx (fosc f : Nat) (pnk : PllCon) (tCore tPeriph tCan : Nat) :
    (s.applyClock fosc f pnk tCore tPeriph tCan).mbx = s.mbx := by simp [State.applyClock]

@[simp] theorem State.applyClock_params (fosc f : Nat) (pnk : PllCon) (tCore tPeriph tCan : Nat) :
    (s.applyClock fosc f pnk tCore tPeriph tCan).params = s.params := by simp [State.applyClock]

@[simp] theorem State.applyClock_schedule (fosc f : Nat) (pnk : PllCon) (tCore tPeriph tCan : Nat) :
    (s.applyClock fosc f pnk tCore tPeriph tCan).schedule = s.schedule := by simp [State.applyClock]

@[simp] theorem State.applyClock_issuer (fosc f : Nat) (pnk : PllCon) (tCore tPeriph tCan : Nat) :
    (s.applyClock fosc f pnk tCore tPeriph tCan).issuer = s.issuer := by simp [State.applyClock]

@[simp] theorem State.applyClock_readData (fosc f : Nat) (pnk : PllCon) (tCore tPeriph tCan : Nat) :
    (s.applyClock fosc f pnk tCore tPeriph tCan).readData = s.readData := by simp [State.applyClock]

@[simp] theorem State.applyClock_ignoredCmd (fosc f : Nat) (pnk : PllCon) (tCore tPeriph tCan : Nat) :
    (s.applyClock fosc f pnk tCore tPeriph tCan).ignoredCmd = s.ignoredCmd := by simp [State.applyClock]

@[simp] theorem State.bank_applyClock (fosc f : Nat) (pnk : PllCon) (tCore tPeriph tCan : Nat) (c : BankId) :
    (s.applyClock fosc f pnk tCore tPeriph tCan).bank c = s.bank c := State.bank_congr c (by simp) (by simp)

@[simp] theorem State.cur_applyClock (fosc f : Nat) (pnk : PllCon) (tCore tPeriph tCan : Nat) :
    (s.applyClock fosc f pnk tCore tPeriph tCan).cur = s.cur := by simp [State.cur]

@[simp] theorem State.node_applyClock (fosc f : Nat) (pnk : PllCon) (tCore tPeriph tCan : Nat) (k : NodeId) :
    (s.applyClock fosc f pnk tCore tPeriph tCan).node k = s.node k := State.node_congr k (by simp)

@[simp] theorem State.mbxRead_applyClock (fosc f : Nat) (pnk : PllCon) (tCore tPeriph tCan : Nat) (k : NodeId) (i w' : Nat) :
    (s.applyClock fosc f pnk tCore tPeriph tCan).mbxRead k i w' = s.mbxRead k i w' := State.mbxRead_congr k (by simp) i w'

end Sys2Proof.Machine
end

