-- ==== Sys2Proof/Laws/Events.lean ====
section
/-! SUPPORT. What a hardware event can do, said once, for every proof over all steps. -/

namespace Sys2Proof.Machine

/-- A bank whose wait has ended with code `c` (R28). -/
abbrev Bank.ended (bk : Bank) (c : ResultCode) : Bank :=
  { bk with waitKind := .none, waitNode := 0, busy := false, code := c }

/-- The ways a hardware event answers a next state, each with what its enabling condition and tests have established. -/
inductive State.EventTo (s : State) : Input → State → Prop where
  | lockSet (h : s.pllstat.state = .prescaleSettling) (hl : s.pllstat.lockBit = false) :
      EventTo s .lockSet (s.setPll { s.pllstat with lockBit := true })
  /-- a poll that ends the wait without touching the PLL or a node -/
  | ended (b : BankId) (hb : (s.bank b).busy = true) (hk : (s.bank b).waitKind = .lock)
      (h : s.pllstat.state ≠ .prescaleSettling) (c : ResultCode) :
      EventTo s (.waitStep b) (s.setBank b ((s.bank b).ended c))
  | locked (b : BankId) (hb : (s.bank b).busy = true) (hk : (s.bank b).waitKind = .lock)
      (h : s.pllstat.state = .prescaleSettling) (hl : s.pllstat.lockBit = true) :
      EventTo s (.waitStep b) ((s.setPll { s.pllstat with state := .locked }).setBank b ((s.bank b).ended .ok))
  | lockTimeout (b : BankId) (hb : (s.bank b).busy = true) (hk : (s.bank b).waitKind = .lock)
      (h : s.pllstat.state = .prescaleSettling) (hl : s.pllstat.lockBit = false)
      (hc : (s.bank b).waitCnt = (s.bank b).waitLim) :
      EventTo s (.waitStep b)
        ((s.setPll { s.pllstat with state := .failed }).setBank b ((s.bank b).ended .clkLockTimeout))
  /-- a poll that only counts -/
  | counted (b : BankId) (hb : (s.bank b).busy = true) (hk : (s.bank b).waitKind ≠ .none)
      (hc : (s.bank b).waitCnt ≠ (s.bank b).waitLim) :
      EventTo s (.waitStep b) (s.setBank b { s.bank b with waitCnt := (s.bank b).waitCnt + 1 })
  /-- a recovery poll that gives up: the node left `BusOff`, or the bound is reached -/
  | recovEnded (b : BankId) (hb : (s.bank b).busy = true) (hk : (s.bank b).waitKind = .recov) (c : ResultCode) :
      EventTo s (.waitStep b) ((s.setNode (s.bank b).waitNode
        { s.node (s.bank b).waitNode with recovering := false }).setBank b ((s.bank b).ended c))
  | recovered (b : BankId) (hb : (s.bank b).busy = true) (hk : (s.bank b).waitKind = .recov)
      (hst : (s.node (s.bank b).waitNode).state = .busOff)
      (hc : s.params.recovSeq ≤ (s.node (s.bank b).waitNode).recCnt.toNat) :
      EventTo s (.waitStep b)
        (((s.setNode (s.bank b).waitNode { s.node (s.bank b).waitNode with
          state := .init, tec := 0, recovering := false }).idleTransmits (s.bank b).waitNode).setBank b
            ((s.bank b).ended .ok))
  | txDone (n : NodeId) (m : Nat) (hn : n.val < s.params.nNode) (hm : m < s.params.nMbx)
      (h : s.txDoneEnabled n m = true) :
      EventTo s (.txDone n m) ((s.setMoBusy n m false).setNode n { s.node n with
        nbusy := bitmapSet (s.node n).nbusy m false,
        nip := { (s.node n).nip with txc := (s.node n).nip.txc || (s.node n).nie.txc } })
  | rxStored (n : NodeId) (f : CanFrame) (hn : n.val < s.params.nNode) (hf : f.wf s.params = true)
      (hst : (s.node n).state = .normal) (m : Nat) (hm : m < s.params.nMbx)
      (ha : bitmapGet (s.node n).nalloc m = true) (hd : bitmapGet (s.node n).ndir m = false)
      (hb : bitmapGet (s.node n).nbusy m = false) (dl dh : Word) :
      EventTo s (.rxFrame n f) ((s.storeFrame n m f.dlc f.rtr f.ide f.id dl dh).setNode n
        { s.node n with
          nbusy := bitmapSet (s.node n).nbusy m true,
          nip := { (s.node n).nip with rxp := (s.node n).nip.rxp || (s.node n).nie.rxp } })
  | rxLost (n : NodeId) (f : CanFrame) (hn : n.val < s.params.nNode) (hst : (s.node n).state = .normal) :
      EventTo s (.rxFrame n f) (s.setNode n { s.node n with rxLost := true })
  | rxWake (n : NodeId) (f : CanFrame) (hn : n.val < s.params.nNode) (hst : (s.node n).state = .sleep) :
      EventTo s (.rxFrame n f) (s.setNode n { s.node n with state := .normal })
  | rxIgnored (n : NodeId) (f : CanFrame) : EventTo s (.rxFrame n f) s
  | busError (n : NodeId) (v : Nat) (hn : n.val < s.params.nNode) (hv : v ≤ s.params.tecMax)
      (hst : (s.node n).state = .normal) (h : v ≤ s.params.busoffTec) :
      EventTo s (.busError n v) (s.setNode n { s.node n with
        tec := BitVec.ofNat 9 v, nip := { (s.node n).nip with berr := (s.node n).nip.berr || (s.node n).nie.berr } })
  | busOff (n : NodeId) (v : Nat) (hn : n.val < s.params.nNode) (hv : v ≤ s.params.tecMax)
      (hst : (s.node n).state = .normal) (h : s.params.busoffTec < v) :
      EventTo s (.busError n v) (s.setNode n { s.node n with
        tec := BitVec.ofNat 9 v, nip := { (s.node n).nip with berr := (s.node n).nip.berr || (s.node n).nie.berr },
        state := .busOff, recCnt := 0 })
  | idleSeq (n : NodeId) (hn : n.val < s.params.nNode) (hst : (s.node n).state = .busOff)
      (hr : (s.node n).recovering = true) :
      EventTo s (.idleSeq n) (s.setNode n { s.node n with
        recCnt := BitVec.ofNat 8 (min ((s.node n).recCnt.toNat + 1) s.params.recovSeq) })
  | reset : EventTo s .reset s.resetBlock

theorem State.eventWaitStep_to {s t : State} {b : BankId} (ht : s.eventWaitStep b = .next t) :
    s.EventTo (.waitStep b) t := by
  unfold State.eventWaitStep at ht
  split at ht
  · next hb =>
    split at ht
    · next hk =>
      unfold State.pollLock at ht
      split at ht
      · next h => injection ht with ht; exact ht ▸ .ended b hb hk (by simp [h]) .ok
      · next h => injection ht with ht; exact ht ▸ .ended b hb hk (by simp [h]) .clkLockTimeout
      · next h =>
        split at ht
        · next hl =>
          injection ht with ht
          have := State.EventTo.locked b hb hk h hl
          rw [State.bank_setPll] at ht
          exact ht ▸ this
        · next hl =>
          split at ht
          · next hc =>
            injection ht with ht
            rw [State.bank_setPll] at ht
            exact ht ▸ .lockTimeout b hb hk h (by simpa using hl) hc
          · next hc => injection ht with ht; exact ht ▸ .counted b hb (by simp [hk]) hc
      · next h => injection ht with ht; exact ht ▸ .ended b hb hk (by simp [h]) .clkBadState
      · next h => injection ht with ht; exact ht ▸ .ended b hb hk (by simp [h]) .clkBadState
    · next hk =>
      unfold State.pollRecov at ht
      dsimp only at ht
      split at ht
      · injection ht with ht
        rw [State.bank_setRecovering] at ht
        exact ht ▸ .recovEnded b hb hk .nodeBadState
      · next hst =>
        split at ht
        · next hc =>
          injection ht with ht
          rw [State.bank_idleTransmits, State.bank_setNode] at ht
          exact ht ▸ .recovered b hb hk (by simpa using hst) hc
        · split at ht
          · injection ht with ht
            rw [State.bank_setRecovering] at ht
            exact ht ▸ .recovEnded b hb hk .recoverTimeout
          · next hc => injection ht with ht; exact ht ▸ .counted b hb (by simp [hk]) hc
    · simp at ht
  · simp at ht

theorem State.eventTxDone_to {s t : State} {n : NodeId} {m : Nat} (ht : s.eventTxDone n m = .next t) :
    s.EventTo (.txDone n m) t := by
  unfold State.eventTxDone State.forNode at ht
  split at ht
  · simp at ht
  next hn =>
  split at ht
  · simp at ht
  next hm =>
  split at ht
  · next h =>
    injection ht with ht
    rw [State.node_setMoBusy, if_pos rfl, NodeRegs.latch_txc] at ht
    subst ht
    exact .txDone n m (by omega) (by omega) h
  · simp at ht

theorem State.eventRxFrame_to {s t : State} {n : NodeId} {f : CanFrame} (ht : s.eventRxFrame n f = .next t) :
    s.EventTo (.rxFrame n f) t := by
  unfold State.eventRxFrame State.forNode at ht
  split at ht
  · simp at ht
  next hn =>
  split at ht
  · next hf =>
    injection ht with ht
    subst ht
    unfold State.receive
    split
    · next hst =>
      split
      · next m hm =>
        obtain ⟨h1, h2, _⟩ := leastMbx_eq_some.mp hm
        simp only [Bool.and_eq_true, Bool.not_eq_true'] at h2
        dsimp only
        rw [State.node_storeFrame, if_pos rfl, NodeRegs.latch_rxp]
        exact .rxStored n f (by omega) hf hst m h1 h2.1.1.1 h2.1.1.2 h2.1.2 _ _
      · split
        · exact .rxLost n f (by omega) hst
        · exact .rxIgnored n f
    · next hst => exact .rxWake n f (by omega) hst
    · exact .rxIgnored n f
    · exact .rxIgnored n f
  · simp at ht

theorem State.eventBusError_to {s t : State} {n : NodeId} {v : Nat} (ht : s.eventBusError n v = .next t) :
    s.EventTo (.busError n v) t := by
  unfold State.eventBusError State.forNode at ht
  split at ht
  · simp at ht
  next hn =>
  split at ht
  · simp at ht
  next hv =>
  split at ht
  · next hst =>
    rw [NodeRegs.latch_berr] at ht
    dsimp only at ht
    split at ht
    · next h => injection ht with ht; exact ht ▸ .busOff n v (by omega) (by omega) hst h
    · next h => injection ht with ht; exact ht ▸ .busError n v (by omega) (by omega) hst (by omega)
  · simp at ht

/-- Every event that has a step takes one of the ways of `EventTo`. -/
theorem State.event_to {s t : State} {a : Input}
    (ha : ∀ b i v addr w x, a ≠ .portRead b i ∧ a ≠ .portWrite b i v ∧ a ≠ .busRead addr w ∧ a ≠ .busWrite addr w x)
    (ht : s.perform a = .next t) : s.EventTo a t := by
  cases a with
  | portRead b i => exact absurd rfl (ha b i 0 0 .word 0).1
  | portWrite b i v => exact absurd rfl (ha b i v 0 .word 0).2.1
  | busRead addr w => exact absurd rfl (ha .fg 0 0 addr w 0).2.2.1
  | busWrite addr w v => exact absurd rfl (ha .fg 0 0 addr w v).2.2.2
  | lockSet =>
    simp only [State.perform, State.eventLockSet] at ht
    split at ht
    · next h => injection ht with ht; exact ht ▸ .lockSet h.1 h.2
    · simp at ht
  | waitStep b => exact State.eventWaitStep_to ht
  | txDone n m => exact State.eventTxDone_to ht
  | rxFrame n f => exact State.eventRxFrame_to ht
  | busError n v => exact State.eventBusError_to ht
  | idleSeq n =>
    simp only [State.perform, State.eventIdleSeq, State.forNode] at ht
    split at ht
    · simp at ht
    next hn =>
    split at ht
    · next h => injection ht with ht; exact ht ▸ .idleSeq n (by omega) h.1 h.2
    · simp at ht
  | reset => injection ht with ht; exact ht ▸ .reset

end Sys2Proof.Machine
end

