-- ==== Sys2Proof/Laws/Safety.lean ====
section
/-! SUPPORT. The words the statements are written with: what `State.coded` says field by field, and the waits of a bank. -/

namespace Sys2Proof.Machine

variable (s : State) (c : ResultCode) (b : BankId) (n : NodeId)

/-- `return c` in the statements' words. -/
theorem State.ret_eq_coded : s.ret c = .next (s.coded c) := by cases s; rfl

@[simp] theorem State.coded_prot : (s.coded c).prot = s.prot := by simp [State.coded]
@[simp] theorem State.coded_faultReg : (s.coded c).faultReg = s.faultReg := by simp [State.coded]
@[simp] theorem State.coded_pllstat : (s.coded c).pllstat = s.pllstat := by simp [State.coded]
@[simp] theorem State.coded_oscfreq : (s.coded c).oscfreq = s.oscfreq := by simp [State.coded]
@[simp] theorem State.coded_pllcon : (s.coded c).pllcon = s.pllcon := by simp [State.coded]
@[simp] theorem State.coded_ccucon : (s.coded c).ccucon = s.ccucon := by simp [State.coded]
@[simp] theorem State.coded_clken : (s.coded c).clken = s.clken := by simp [State.coded]
@[simp] theorem State.coded_fpll : (s.coded c).fpll = s.fpll := by simp [State.coded]
@[simp] theorem State.coded_freqCore : (s.coded c).freqCore = s.freqCore := by simp [State.coded]
@[simp] theorem State.coded_freqPeriph : (s.coded c).freqPeriph = s.freqPeriph := by simp [State.coded]
@[simp] theorem State.coded_freqCan : (s.coded c).freqCan = s.freqCan := by simp [State.coded]
@[simp] theorem State.coded_nodes : (s.coded c).nodes = s.nodes := by simp [State.coded]
@[simp] theorem State.coded_mbx : (s.coded c).mbx = s.mbx := by simp [State.coded]
@[simp] theorem State.coded_params : (s.coded c).params = s.params := by simp [State.coded]
@[simp] theorem State.coded_schedule : (s.coded c).schedule = s.schedule := by simp [State.coded]
@[simp] theorem State.coded_issuer : (s.coded c).issuer = s.issuer := by simp [State.coded]
@[simp] theorem State.coded_readData : (s.coded c).readData = s.readData := by simp [State.coded]
@[simp] theorem State.coded_ignoredCmd : (s.coded c).ignoredCmd = s.ignoredCmd := by simp [State.coded]
@[simp] theorem State.coded_cur : (s.coded c).cur = { s.cur with code := c } := by simp [State.coded]
@[simp] theorem State.coded_node : (s.coded c).node n = s.node n := by simp [State.coded]
@[simp] theorem State.coded_mbxRead (m w : Nat) : (s.coded c).mbxRead n m w = s.mbxRead n m w := by simp [State.coded]

@[simp] theorem State.coded_setCur (bk : Bank) : (s.setCur bk).coded c = s.setCur { bk with code := c } := by
  simp [State.coded]

theorem State.coded_bank : (s.coded c).bank b = if b = s.issuer then { s.cur with code := c } else s.bank b := by
  simp only [State.coded, State.setCur, State.bank_setBank]

theorem State.waitsFor_iff : s.waitsFor b n = true ↔ (s.bank b).waitKind = .recov ∧ (s.bank b).waitNode = n := by
  simp only [State.waitsFor, Bool.and_eq_true, decide_eq_true_eq]

end Sys2Proof.Machine
end

