-- ==== Sys2Proof/Laws/Exec.lean ====
section
/-! SUPPORT. What a command can do, said once: it faults, it ends with an error code and nothing else (R309), or it succeeds
in one of the ways listed. For every proof over all commands. -/

namespace Sys2Proof.Machine

/-- A code other than `OK`, `PENDING` and `FAULTED`. -/
def ResultCode.isError : ResultCode → Bool
  | .ok | .pending | .faulted => false
  | .empty | .guardAlreadyHeld | .guardNotHeld | .clkInvalidTarget | .clkLockTimeout | .clkBadState | .clkNotLocked
  | .clkDomainOff | .btUnachievable | .btFreqTooLow | .btFreqTooHigh | .poolExhausted | .cfgNotInInit
  | .cfgNotConfigured | .nodeBadState | .recoverTimeout | .txNoFreeMailbox | .txNotNormal | .badReg => true

/-- The state after `start_wait` of the issuing bank (R28). -/
abbrev State.waiting (s : State) (kind : WaitKind) (n : NodeId) (limit : Word) : State :=
  s.setCur { s.cur with
    waitKind := kind, waitNode := n, waitLim := limit, waitCnt := 0, busy := true, code := .pending }

/-- The ways a command succeeds, each with what its checks have established. -/
inductive State.Succeeds (s : State) : Instr → State → Prop where
  | nop : Succeeds s .nop (s.coded .ok)
  | guardAcq (h : s.prot.held = false) : Succeeds s .guardAcq ((s.setProt ⟨true, true, s.issuer⟩).coded .ok)
  | guardRel (h : s.prot.held = true) (ho : s.prot.owner = s.issuer) :
      Succeeds s .guardRel ((s.setProt ⟨false, false, .fg⟩).coded .ok)
  | regRead (v : Word) (h : s.regView s.cur.arg0.toNat = some v) :
      Succeeds s .regRead (s.setCur { s.cur with res0 := v, code := .ok })
  | clkSelect (v w : Word) : Succeeds s .clkSelect (s.setCur { s.cur with res0 := v, res1 := w, code := .ok })
  | clkConfigure (fosc f : Nat) (pnk : PllCon) (tCore tPeriph tCan : Nat) (f0 f1 f2 f3 : Word)
      (h : s.pllstat.state = .disabled ∨ s.pllstat.state = .freeRunning) (hp : s.prot.held = false) :
      Succeeds s .clkConfigure
        ((((s.applyClock fosc f pnk tCore tPeriph tCan).setProt ⟨false, false, .fg⟩).setFreqs f0 f1 f2 f3).waiting
          .lock 0 s.params.pllLockMax)
  | clkWaitLock (h : s.pllstat.state ≠ .disabled) (hf : s.pllstat.state ≠ .freeRunning) :
      Succeeds s .clkWaitLock (s.waiting .lock 0 s.cur.arg0)
  | clkFreq (d : Domain) : Succeeds s .clkFreq (s.setCur { s.cur with res0 := s.freqOf d, code := .ok })
  | clkReinit (h : s.pllstat.state = .failed) (hp : s.prot.held = false) :
      Succeeds s .clkReinit
        (((((s.setClock 0 ⟨0, 0, 0⟩ ⟨0, 0, 0⟩).setProt ⟨false, false, .fg⟩).setPll ⟨.disabled, false, false⟩).setFreqs
          0 0 0 0).coded .ok)
  | clkDomainEnable (d : Domain) (h : s.pllstat.state = .locked) (hf : s.freqOf d ≠ 0) :
      Succeeds s .clkDomainEnable ((s.setClken (s.clken.enable d)).coded .ok)
  | btCompute (r : BtResult)
      (h : btCompute s.params s.cur.arg0.toNat s.cur.arg1.toNat s.cur.arg2.toNat s.cur.arg3.toNat = .ok r)
      (ha : btArgBad s.cur.arg1.toNat s.cur.arg2.toNat = false) :
      Succeeds s .btCompute (s.setCur { s.cur.setBtResult r with code := .ok })
  | mbxAlloc (n : NodeId) (m : Nat) (hst : (s.node n).state = .init) (hm : m < s.params.nMbx)
      (hfree : bitmapGet (s.node n).nalloc m = false) (hr : fctlReserved s.cur.arg0 = false)
      (h1 : idTooWide (fctlFide s.cur.arg0) s.cur.arg1 = false) (h2 : idTooWide (fctlFide s.cur.arg0) s.cur.arg2 = false)
      (hleast : ∀ k < m, bitmapGet (s.node n).nalloc k = true) :
      Succeeds s (.mbxAlloc n)
        ((((((((s.mbxWrite n m 0 (moFresh (fctlDir s.cur.arg0) (fctlFkind s.cur.arg0) (fctlFide s.cur.arg0))).mbxWrite
          n m 1 0).mbxWrite n m 2 s.cur.arg1).mbxWrite n m 3 s.cur.arg2).mbxWrite n m 4 0).mbxWrite n m 5 0).setBitmaps
          n m true (fctlDir s.cur.arg0) false).setCur { s.cur with res0 := BitVec.ofNat 32 m, code := .ok })
  | mbxReleaseAll (n : NodeId) (hst : (s.node n).state = .init) :
      Succeeds s (.mbxReleaseAll n) ((s.releaseAll n).coded .ok)
  | mbxRead (n : NodeId) (m : Nat) (hm : m < s.params.nMbx) :
      Succeeds s (.mbxRead n) (s.setCur { s.cur with
        res0 := s.mbxRead n m 0, res1 := s.mbxRead n m 1, res2 := s.mbxRead n m 2,
        res3 := s.mbxRead n m 3, res4 := s.mbxRead n m 4, res5 := s.mbxRead n m 5, code := .ok })
  | nodeConfigure (n : NodeId) (r : BtResult) (hst : (s.node n).state = .init) (hpll : s.pllstat.state = .locked)
      (h : btCompute s.params s.freqCan.toNat s.cur.arg0.toNat s.cur.arg1.toNat s.cur.arg2.toNat = .ok r)
      (ha : btArgBad s.cur.arg0.toNat s.cur.arg1.toNat = false) (hp : s.prot.held = false) :
      Succeeds s (.nodeConfigure n)
        ((((s.releaseAll n).setProt ⟨false, false, .fg⟩).setNode n { (s.releaseAll n).node n with
          rxLost := false, nbtr := r.btr, nbitrate := BitVec.ofNat 32 r.brReal, nsp := BitVec.ofNat 10 r.spReal,
          configured := true }).setCur { s.cur.setBtResult r with code := .ok })
  | nodeStart (n : NodeId) (hst : (s.node n).state = .init) (hc : (s.node n).configured = true)
      (ha : (s.node n).nalloc ≠ 0) (hk : s.clken.can = true) :
      Succeeds s (.nodeStart n) ((s.setNode n { s.node n with state := .normal }).coded .ok)
  | nodeTransmit (n : NodeId) (m : Nat) (hst : (s.node n).state = .normal) (hm : m < s.params.nMbx)
      (ha : bitmapGet (s.node n).nalloc m = true) (hd : bitmapGet (s.node n).ndir m = true)
      (hb : bitmapGet (s.node n).nbusy m = false) (hl : (hdrDlc s.cur.arg0).toNat ≤ s.params.dlcMax)
      (hi : idTooWide (hdrIde s.cur.arg0) s.cur.arg1 = false) (dl dh : Word) :
      Succeeds s (.nodeTransmit n)
        ((s.storeFrame n m (hdrDlc s.cur.arg0) (hdrRtr s.cur.arg0) (hdrIde s.cur.arg0) s.cur.arg1 dl dh).setCur
          { s.cur with res0 := BitVec.ofNat 32 m, code := .ok })
  | nodeTryReceive (n : NodeId) (m : Nat) (hm : m < s.params.nMbx) (ha : bitmapGet (s.node n).nalloc m = true)
      (hd : bitmapGet (s.node n).ndir m = false) (hb : bitmapGet (s.node n).nbusy m = true) :
      Succeeds s (.nodeTryReceive n) ((s.setMoBusy n m false).setCur { s.cur with
        res0 := hdrResult (s.moctrl n m) m, res1 := s.mbxRead n m 1, res2 := s.mbxRead n m 4, res3 := s.mbxRead n m 5,
        code := .ok })
  | nodeBusState (n : NodeId) :
      Succeeds s (.nodeBusState n) (s.setCur { s.cur with res0 := (s.node n).state.num, code := .ok })
  | nodeSleep (n : NodeId) (hst : (s.node n).state = .normal) :
      Succeeds s (.nodeSleep n) ((s.setNode n { s.node n with state := .sleep }).coded .ok)
  | nodeWake (n : NodeId) (hst : (s.node n).state = .sleep) :
      Succeeds s (.nodeWake n) ((s.setNode n { s.node n with state := .normal }).coded .ok)
  | nodeRecover (n : NodeId) (hst : (s.node n).state = .busOff) (hr : (s.node n).recovering = false) :
      Succeeds s (.nodeRecover n)
        ((s.setNode n { s.node n with recovering := true, recCnt := 0 }).waiting .recov n s.cur.arg0)
  | irqEnable (n : NodeId) (k : EventKind) (p : BitVec 8) :
      Succeeds s (.irqEnable n) ((s.setNode n { s.node n with
        nie := (s.node n).nie.set k true, prio := (s.node n).prio.set k p }).coded .ok)
  | irqDisable (n : NodeId) (k : EventKind) :
      Succeeds s (.irqDisable n) ((s.setNode n { s.node n with
        nie := (s.node n).nie.set k false, prio := (s.node n).prio.set k 0, nip := (s.node n).nip.set k false }).coded .ok)
  | irqAck (n : NodeId) (k : EventKind) :
      Succeeds s (.irqAck n) ((s.setNode n { s.node n with nip := (s.node n).nip.set k false }).coded .ok)

/-- The answers of a command. -/
inductive State.Answers (s : State) (i : Instr) : Result → Prop where
  | faults (c : FaultCause) : Answers s i (.next (s.faulted c))
  | errs (c : ResultCode) (hc : c.isError = true) : Answers s i (.next (s.coded c))
  | succeeds (t : State) (h : s.Succeeds i t) : Answers s i (.next t)

theorem State.Answers.raise {s : State} {i : Instr} (c : FaultCause) : s.Answers i (s.raiseFault c) := by
  rw [State.raiseFault_eq_next.mpr rfl]; exact .faults c

theorem State.Answers.err {s : State} {i : Instr} (c : ResultCode) (hc : c.isError = true) : s.Answers i (s.ret c) := by
  rw [State.ret_eq_coded]; exact .errs c hc

/-- A success that ends in `return OK`. -/
theorem State.Answers.done {s t : State} {i : Instr} {u : State} (h : s.Succeeds i t) (e : u.coded .ok = t) :
    s.Answers i (u.ret .ok) := by
  rw [State.ret_eq_coded]; exact e ▸ .succeeds t h

/-- The three error codes of `bt_compute` (R179). -/
theorem btCompute_error {pr : Params} {clk br sp tol : Nat} {c : ResultCode}
    (h : btCompute pr clk br sp tol = .error c) : c.isError = true := by
  unfold btCompute at h
  split at h
  · injection h with h; exact h ▸ rfl
  · split at h
    · injection h with h; exact h ▸ rfl
    · split at h
      · injection h with h; exact h ▸ rfl
      · split at h
        · injection h with h; exact h ▸ rfl
        · simp at h

/-- A write of the issuing bank and a busy flag commute. -/
theorem State.setMoBusy_setCur (s : State) (bk : Bank) (n : NodeId) (m : Nat) (v : Bool) :
    (s.setCur bk).setMoBusy n m v = (s.setMoBusy n m v).setCur bk := by
  show (s.setBank s.issuer bk).setMoBusy n m v = (s.setMoBusy n m v).setBank s.issuer bk
  cases s.issuer <;> rfl

/-- The protected writes of `CLK_CONFIGURE` between the internal acquire and release. -/
theorem State.applyClock_guarded (s : State) (fosc f : Nat) (pnk : PllCon) (tCore tPeriph tCan : Nat) :
    (s.acquire.applyClock fosc f pnk tCore tPeriph tCan).release =
      (s.applyClock fosc f pnk tCore tPeriph tCan).setProt ⟨false, false, .fg⟩ := rfl

/-- The register writes of `NODE_CONFIGURE` between the internal acquire and release, and those after it (R210). -/
theorem State.applyTiming_guarded (s : State) (n : NodeId) (r : BtResult) (x : Word) (y : BitVec 10) :
    ((((s.setNode n { s.node n with rxLost := false }).acquire.applyTiming n r).release).setNode n
      { (((s.setNode n { s.node n with rxLost := false }).acquire.applyTiming n r).release).node n with
        nbitrate := x, nsp := y, configured := true }) =
    (s.setProt ⟨false, false, .fg⟩).setNode n
      { s.node n with rxLost := false, nbtr := r.btr, nbitrate := x, nsp := y, configured := true } := by
  apply State.ext <;> simp [State.acquire, State.release, State.applyTiming, State.setNode, State.node, State.setProt]

/-- Every command answers in one of these ways, in every state. -/
theorem exec_answers (i : Instr) (s : State) : s.Answers i (exec i s) := by
  cases i <;> simp only [exec]
  case nop => exact .done .nop rfl
  case guardAcq =>
    unfold execGuardAcq
    split
    · exact .err _ rfl
    · next h => exact .done (.guardAcq (by simpa using h)) rfl
  case guardRel =>
    unfold execGuardRel
    split
    · exact .err _ rfl
    · next h =>
      simp only [Bool.or_eq_true, Bool.not_eq_true', decide_eq_true_eq, ne_eq, not_or, Bool.not_eq_false,
        Decidable.not_not] at h
      exact .done (.guardRel h.1 h.2) rfl
  case regRead =>
    unfold execRegRead
    split
    · exact .err _ rfl
    · next v h => exact .done (.regRead v h) (by simp)
  case clkSelect =>
    unfold execClkSelect
    dsimp only
    split
    · exact .err _ rfl
    · exact .done (.clkSelect _ _) (State.coded_setCur _ _ _)
  case clkConfigure =>
    unfold execClkConfigure
    dsimp only
    split
    · exact .raise _
    split
    · exact .err _ rfl
    next hst =>
    split
    · exact .err _ rfl
    unfold State.guarded
    split
    · exact .err _ rfl
    next hp =>
    refine .succeeds _ ?_
    show s.Succeeds .clkConfigure
      ((((s.acquire.applyClock _ _ _ _ _ _).release).setFreqs _ _ _ _).waiting .lock 0 s.params.pllLockMax)
    rw [State.applyClock_guarded]
    exact .clkConfigure _ _ _ _ _ _ _ _ _ _ (by tauto) (by simpa using hp)
  case clkWaitLock =>
    unfold execClkWaitLock
    split
    · exact .err _ rfl
    · next h => exact .succeeds _ (.clkWaitLock (by tauto) (by tauto))
  case clkFreq =>
    unfold execClkFreq
    split
    · exact .raise _
    · next d _ => exact .done (.clkFreq d) (by simp)
  case clkReinit =>
    unfold execClkReinit
    split
    · exact .err _ rfl
    next h =>
    unfold State.guarded
    split
    · exact .err _ rfl
    next hp => exact .done (.clkReinit (by simpa using h) (by simpa using hp)) rfl
  case clkDomainEnable =>
    unfold execClkDomainEnable
    split
    · exact .raise _
    next d _ =>
    split
    · exact .err _ rfl
    next h =>
    split
    · exact .err _ rfl
    next hf => exact .done (.clkDomainEnable d (by simpa using h) hf) rfl
  case btCompute =>
    unfold execBtCompute
    dsimp only
    split
    · exact .raise _
    next ha =>
    split
    · next hc => exact .err _ (btCompute_error hc)
    · next r hr => exact .done (.btCompute r hr (by simpa using ha)) (by simp)
  case mbxAlloc n =>
    unfold execMbxAlloc
    dsimp only
    split
    · exact .raise _
    next hr =>
    split
    · exact .raise _
    next hi =>
    split
    · exact .err _ rfl
    next hst =>
    split
    · exact .err _ rfl
    split
    · exact .err _ rfl
    next m hm =>
    obtain ⟨h1, h2, h3⟩ := leastMbx_eq_some.mp hm
    simp only [Bool.or_eq_true, not_or, Bool.not_eq_true] at hi
    exact .done (.mbxAlloc n m (by simpa using hst) h1 (by simpa using h2) (by simpa using hr) hi.1 hi.2
      (by simpa using h3)) (by simp [State.setBitmaps])
  case mbxReleaseAll n =>
    unfold execMbxReleaseAll
    split
    · exact .err _ rfl
    · next h => exact .done (.mbxReleaseAll n (by simpa using h)) rfl
  case mbxRead n =>
    unfold execMbxRead
    dsimp only
    split
    · exact .raise _
    · next h =>
      simp only [Bool.or_eq_true, decide_eq_true_eq, not_or, Nat.not_le] at h
      exact .done (.mbxRead n s.cur.arg0.toNat h.1) (by simp)
  case nodeConfigure n =>
    unfold execNodeConfigure
    dsimp only
    split
    · exact .raise _
    next ha =>
    split
    · exact .err _ rfl
    next hst =>
    split
    · exact .err _ rfl
    next hpll =>
    split
    · next hc => exact .err _ (btCompute_error hc)
    next r hr =>
    split
    · exact .err _ rfl
    next hp =>
    have hp' : s.prot.held = false := by simpa using hp
    have h := State.Succeeds.nodeConfigure n r (by simpa using hst) (by simpa using hpll) hr (by simpa using ha) hp'
    rw [State.guarded_of_free (by simpa using hp')]
    refine .done h ?_
    rw [State.applyTiming_guarded, State.cur_setNode, State.cur_setProt, State.cur_releaseAll, State.coded_setCur]
  case nodeStart n =>
    unfold execNodeStart
    split
    · exact .err _ rfl
    next hst =>
    split
    · exact .err _ rfl
    next hc =>
    split
    · exact .err _ rfl
    next hk =>
    simp only [Bool.or_eq_true, Bool.not_eq_true', decide_eq_true_eq, not_or, Bool.not_eq_false] at hc
    exact .done (.nodeStart n (by simpa using hst) hc.1 hc.2 (by simpa using hk)) rfl
  case nodeTransmit n =>
    unfold execNodeTransmit
    dsimp only
    split
    · exact .raise _
    split
    · exact .raise _
    next hl =>
    split
    · exact .raise _
    next hi =>
    split
    · exact .err _ rfl
    next hst =>
    split
    · exact .err _ rfl
    next m hm =>
    obtain ⟨h1, h2, _⟩ := leastMbx_eq_some.mp hm
    simp only [Bool.and_eq_true, Bool.not_eq_true'] at h2
    exact .done (.nodeTransmit n m (by simpa using hst) h1 h2.1.1 h2.1.2 h2.2 (by simpa using hl) (by simpa using hi) _ _)
      (by rw [State.coded_setCur, State.cur_storeFrame])
  case nodeTryReceive n =>
    unfold execNodeTryReceive
    split
    · exact .err _ rfl
    next m hm =>
    obtain ⟨h1, h2, _⟩ := leastMbx_eq_some.mp hm
    simp only [Bool.and_eq_true, Bool.not_eq_true'] at h2
    exact .done (.nodeTryReceive n m h1 h2.1.1 h2.1.2 h2.2) (by rw [State.setMoBusy_setCur, State.coded_setCur])
  case nodeBusState n => exact .done (.nodeBusState n) (by simp)
  case nodeSleep n =>
    unfold execNodeSleep
    split
    · exact .err _ rfl
    · next h => exact .done (.nodeSleep n (by simpa using h)) rfl
  case nodeWake n =>
    unfold execNodeWake
    split
    · exact .err _ rfl
    · next h => exact .done (.nodeWake n (by simpa using h)) rfl
  case nodeRecover n =>
    unfold execNodeRecover
    split
    · exact .err _ rfl
    · next h =>
      simp only [not_or, ne_eq, Decidable.not_not, Bool.not_eq_true] at h
      refine .succeeds _ ?_
      have := State.Succeeds.nodeRecover n h.1 h.2
      simpa [State.waiting] using this
  case irqEnable n =>
    unfold execIrqEnable
    split
    · exact .raise _
    · next k _ =>
      split
      · exact .raise _
      · exact .done (.irqEnable n k _) rfl
  case irqDisable n =>
    unfold execIrqDisable
    split
    · exact .raise _
    · next k _ => exact .done (.irqDisable n k) rfl
  case irqAck n =>
    unfold execIrqAck
    split
    · exact .raise _
    · next k _ => exact .done (.irqAck n k) rfl

/-- The next state of a command: a fault entry, an error code, or a success. -/
theorem exec_cases {i : Instr} {s t : State} (h : exec i s = .next t) :
    (∃ c, t = s.faulted c) ∨ (∃ c, c.isError = true ∧ t = s.coded c) ∨ s.Succeeds i t := by
  have := exec_answers i s
  rw [h] at this
  cases this with
  | faults c => exact .inl ⟨c, rfl⟩
  | errs c hc => exact .inr (.inl ⟨c, hc, rfl⟩)
  | succeeds _ hs => exact .inr (.inr hs)

end Sys2Proof.Machine
end

