-- ==== Sys2Proof/Laws/PerInstr.lean ====
section
/-! SUPPORT. Statements for all instructions, one lemma per constructor: the fields an encoded command carries and the
row of the opcode map its opcode names (30_encoding.md R101, R102, R104). -/

namespace Sys2Proof.Laws

/-- The three fields of an encoded command: its opcode, its node (0 for class C0), and `ZERO` clear; and the row its
opcode names in the opcode map is its own. -/
def EncodeFields.Statement (i : Instr) : Prop :=
  opcOf (encode i) = i.opc ∧ zeroOf (encode i) = 0 ∧ nodeOf (encode i) = i.node.getD 0 ∧
  (match opRow i.opc with
    | some (.c0 j) => j = i ∧ i.node = none
    | some (.cn f) => ∃ n, i.node = some n ∧ f n = i
    | none => False)

/-- Bit by bit, a word put together from its three fields. -/
theorem getLsbD_fields (z : BitVec 20) (x : BitVec 4) (o : BitVec 8) (i : Nat) :
    (z ++ x ++ o : Word).getLsbD i =
      if i < 8 then o.getLsbD i else if i < 12 then x.getLsbD (i - 8) else z.getLsbD (i - 12) := by
  have h : (z ++ x ++ o : Word).getLsbD i = if i < 8 then o.getLsbD i else (z ++ x).getLsbD (i - 8) :=
    BitVec.getLsbD_append
  have h' : (z ++ x).getLsbD (i - 8) = if i - 8 < 4 then x.getLsbD (i - 8) else z.getLsbD (i - 8 - 4) :=
    BitVec.getLsbD_append
  rw [h, h']
  have e : i - 8 - 4 = i - 12 := by omega
  by_cases h1 : i < 8
  · simp [h1]
  · by_cases h2 : i < 12
    · have : i - 8 < 4 := by omega
      simp [h1, h2, this]
    · have : ¬ i - 8 < 4 := by omega
      simp [h1, h2, this, e]

/-- The fields of a word put together from its three fields (R101). -/
theorem fields_of_append (z : BitVec 20) (x : BitVec 4) (o : BitVec 8) :
    opcOf (z ++ x ++ o) = o ∧ zeroOf (z ++ x ++ o) = z ∧ nodeOf (z ++ x ++ o) = x.toFin := by
  refine ⟨?_, ?_, congrArg BitVec.toFin ?_⟩ <;> apply BitVec.eq_of_getLsbD_eq <;> intro i hi
  · simp only [opcOf, BitVec.getLsbD_extractLsb', getLsbD_fields]
    simp [hi]
  · have h1 : ¬ 12 + i < 8 := by omega
    simp only [zeroOf, BitVec.getLsbD_extractLsb', getLsbD_fields]
    simp [hi, h1]
  · have h1 : 8 + i < 12 := by omega
    simp only [BitVec.getLsbD_extractLsb', getLsbD_fields]
    simp [hi, h1]

/-- The fields of the word the encoder writes. -/
theorem encode_fields (i : Instr) :
    opcOf (encode i) = i.opc ∧ zeroOf (encode i) = 0 ∧ nodeOf (encode i) = i.node.getD 0 := by
  obtain ⟨h1, h2, h3⟩ := fields_of_append 0 (BitVec.ofNat 4 (i.node.getD 0).val) i.opc
  exact ⟨h1, h2, h3.trans (Fin.ext (by simp))⟩

theorem EncodeFields.nop : EncodeFields.Statement .nop :=
  ⟨(encode_fields _).1, (encode_fields _).2.1, (encode_fields _).2.2, rfl, rfl⟩

theorem EncodeFields.guardAcq : EncodeFields.Statement .guardAcq :=
  ⟨(encode_fields _).1, (encode_fields _).2.1, (encode_fields _).2.2, rfl, rfl⟩

theorem EncodeFields.guardRel : EncodeFields.Statement .guardRel :=
  ⟨(encode_fields _).1, (encode_fields _).2.1, (encode_fields _).2.2, rfl, rfl⟩

theorem EncodeFields.regRead : EncodeFields.Statement .regRead :=
  ⟨(encode_fields _).1, (encode_fields _).2.1, (encode_fields _).2.2, rfl, rfl⟩

theorem EncodeFields.clkSelect : EncodeFields.Statement .clkSelect :=
  ⟨(encode_fields _).1, (encode_fields _).2.1, (encode_fields _).2.2, rfl, rfl⟩

theorem EncodeFields.clkConfigure : EncodeFields.Statement .clkConfigure :=
  ⟨(encode_fields _).1, (encode_fields _).2.1, (encode_fields _).2.2, rfl, rfl⟩

theorem EncodeFields.clkWaitLock : EncodeFields.Statement .clkWaitLock :=
  ⟨(encode_fields _).1, (encode_fields _).2.1, (encode_fields _).2.2, rfl, rfl⟩

theorem EncodeFields.clkFreq : EncodeFields.Statement .clkFreq :=
  ⟨(encode_fields _).1, (encode_fields _).2.1, (encode_fields _).2.2, rfl, rfl⟩

theorem EncodeFields.clkReinit : EncodeFields.Statement .clkReinit :=
  ⟨(encode_fields _).1, (encode_fields _).2.1, (encode_fields _).2.2, rfl, rfl⟩

theorem EncodeFields.clkDomainEnable : EncodeFields.Statement .clkDomainEnable :=
  ⟨(encode_fields _).1, (encode_fields _).2.1, (encode_fields _).2.2, rfl, rfl⟩

theorem EncodeFields.btCompute : EncodeFields.Statement .btCompute :=
  ⟨(encode_fields _).1, (encode_fields _).2.1, (encode_fields _).2.2, rfl, rfl⟩

theorem EncodeFields.mbxAlloc (n : NodeId) : EncodeFields.Statement (.mbxAlloc n) :=
  ⟨(encode_fields _).1, (encode_fields _).2.1, (encode_fields _).2.2, n, rfl, rfl⟩

theorem EncodeFields.mbxReleaseAll (n : NodeId) : EncodeFields.Statement (.mbxReleaseAll n) :=
  ⟨(encode_fields _).1, (encode_fields _).2.1, (encode_fields _).2.2, n, rfl, rfl⟩

theorem EncodeFields.mbxRead (n : NodeId) : EncodeFields.Statement (.mbxRead n) :=
  ⟨(encode_fields _).1, (encode_fields _).2.1, (encode_fields _).2.2, n, rfl, rfl⟩

theorem EncodeFields.nodeConfigure (n : NodeId) : EncodeFields.Statement (.nodeConfigure n) :=
  ⟨(encode_fields _).1, (encode_fields _).2.1, (encode_fields _).2.2, n, rfl, rfl⟩

theorem EncodeFields.nodeStart (n : NodeId) : EncodeFields.Statement (.nodeStart n) :=
  ⟨(encode_fields _).1, (encode_fields _).2.1, (encode_fields _).2.2, n, rfl, rfl⟩

theorem EncodeFields.nodeTransmit (n : NodeId) : EncodeFields.Statement (.nodeTransmit n) :=
  ⟨(encode_fields _).1, (encode_fields _).2.1, (encode_fields _).2.2, n, rfl, rfl⟩

theorem EncodeFields.nodeTryReceive (n : NodeId) : EncodeFields.Statement (.nodeTryReceive n) :=
  ⟨(encode_fields _).1, (encode_fields _).2.1, (encode_fields _).2.2, n, rfl, rfl⟩

theorem EncodeFields.nodeBusState (n : NodeId) : EncodeFields.Statement (.nodeBusState n) :=
  ⟨(encode_fields _).1, (encode_fields _).2.1, (encode_fields _).2.2, n, rfl, rfl⟩

theorem EncodeFields.nodeSleep (n : NodeId) : EncodeFields.Statement (.nodeSleep n) :=
  ⟨(encode_fields _).1, (encode_fields _).2.1, (encode_fields _).2.2, n, rfl, rfl⟩

theorem EncodeFields.nodeWake (n : NodeId) : EncodeFields.Statement (.nodeWake n) :=
  ⟨(encode_fields _).1, (encode_fields _).2.1, (encode_fields _).2.2, n, rfl, rfl⟩

theorem EncodeFields.nodeRecover (n : NodeId) : EncodeFields.Statement (.nodeRecover n) :=
  ⟨(encode_fields _).1, (encode_fields _).2.1, (encode_fields _).2.2, n, rfl, rfl⟩

theorem EncodeFields.irqEnable (n : NodeId) : EncodeFields.Statement (.irqEnable n) :=
  ⟨(encode_fields _).1, (encode_fields _).2.1, (encode_fields _).2.2, n, rfl, rfl⟩

theorem EncodeFields.irqDisable (n : NodeId) : EncodeFields.Statement (.irqDisable n) :=
  ⟨(encode_fields _).1, (encode_fields _).2.1, (encode_fields _).2.2, n, rfl, rfl⟩

theorem EncodeFields.irqAck (n : NodeId) : EncodeFields.Statement (.irqAck n) :=
  ⟨(encode_fields _).1, (encode_fields _).2.1, (encode_fields _).2.2, n, rfl, rfl⟩

end Sys2Proof.Laws
end

