-- ==== Sys2Proof/Laws/Step.lean ====
section
/-! SUPPORT. What one step can do, said once: a case analysis of `step` by who steps, for every proof about a step. -/

namespace Sys2Proof.Machine

theorem step_nil {s : State} (h : s.schedule = []) : step s = .next s := by
  simp [step, State.stepSchedule, h]

theorem step_cons {s : State} {a : Input} {rest : List Input} (h : s.schedule = a :: rest) :
    step s = (s.moved rest).perform a := by
  simp [step, State.stepSchedule, h]

/-- The steps of the hardware, against those of the host (R16). -/
def Input.isEvent : Input → Bool
  | .portRead _ _ | .portWrite _ _ _ | .busRead _ _ | .busWrite _ _ _ => false
  | .lockSet | .waitStep _ | .txDone _ _ | .rxFrame _ _ | .busError _ _ | .idleSeq _ | .reset => true

/-- The ways a step answers a next state. -/
inductive State.StepTo (s : State) : State → Prop where
  /-- the schedule names no step -/
  | idle (h : s.schedule = []) : StepTo s s
  /-- a port read -/
  | read (a : Input) (rest : List Input) (h : s.schedule = a :: rest) (ha : a.isEvent = false)
      (hc : s.nextCommand = none) (v : Word) : StepTo s ((s.moved rest).setReadData v)
  /-- a port write of an operand, or one that is ignored -/
  | operand (a : Input) (rest : List Input) (h : s.schedule = a :: rest) (ha : a.isEvent = false)
      (hc : s.nextCommand = none) (b : BankId) (a0 a1 a2 a3 a4 : Word) (i : Fin 16) (v : Word)
      (hw : s.nextWrite = some (b, i, v)) (hi : i ≠ 0)
      (he : { s.bank b with arg0 := a0, arg1 := a1, arg2 := a2, arg3 := a3, arg4 := a4 } = (s.storeOperand b i v).bank b) :
      StepTo s ((s.moved rest).setBank b { s.bank b with arg0 := a0, arg1 := a1, arg2 := a2, arg3 := a3, arg4 := a4 })
  /-- a command word on a busy bank (R109) -/
  | ignored (a : Input) (rest : List Input) (h : s.schedule = a :: rest) (ha : a.isEvent = false) (b : BankId) (w : Word)
      (hc : s.nextCommand = some (b, w)) (hb : (s.bank b).busy = true) : StepTo s ((s.moved rest).flagIgnored)
  /-- a command word after a fault (R110) -/
  | latched (a : Input) (rest : List Input) (h : s.schedule = a :: rest) (ha : a.isEvent = false) (b : BankId) (w : Word)
      (hc : s.nextCommand = some (b, w)) (hb : (s.bank b).busy = false) (hf : s.faultReg ≠ none) :
      StepTo s ((s.moved rest).setBank b { s.bank b with cmd := w, code := .faulted })
  /-- an illegal command word (R106) -/
  | illegal (a : Input) (rest : List Input) (h : s.schedule = a :: rest) (ha : a.isEvent = false) (b : BankId) (w : Word)
      (hc : s.nextCommand = some (b, w)) (hb : (s.bank b).busy = false) (hf : s.faultReg = none) (e : Illegal)
      (hd : decode s.params.nNode w = .error e) (hi : s.nextInstr = none) :
      StepTo s ((s.issued b w rest).faulted .illegalCmd)
  /-- a command that executes (R121) -/
  | command (a : Input) (rest : List Input) (h : s.schedule = a :: rest) (ha : a.isEvent = false) (b : BankId) (w : Word)
      (hc : s.nextCommand = some (b, w)) (hb : (s.bank b).busy = false) (hf : s.faultReg = none) (i : Instr)
      (hd : decode s.params.nNode w = .ok i) (hi : s.nextInstr = some (b, i)) (t : State)
      (ht : exec i (s.issued b w rest) = .next t) : StepTo s t
  /-- a hardware event -/
  | event (a : Input) (rest : List Input) (h : s.schedule = a :: rest) (ha : a.isEvent = true) (t : State)
      (ht : (s.moved rest).EventTo a t) : StepTo s t

/-- A write of a command word, by the port or over the bus. -/
theorem State.StepTo.ofIssue {s t : State} {a : Input} {rest : List Input} {b : BankId} {w : Word}
    (h : s.schedule = a :: rest) (ha : a.isEvent = false) (hc : s.nextCommand = some (b, w))
    (ht : (s.moved rest).issue b w = .next t) : s.StepTo t := by
  unfold State.issue at ht
  rw [State.bank_moved, State.moved_faultReg] at ht
  by_cases hb : (s.bank b).busy = true
  · rw [if_pos hb] at ht
    injection ht with ht
    exact ht ▸ .ignored a rest h ha b w hc hb
  have hb' : (s.bank b).busy = false := by simpa using hb
  rw [if_neg hb] at ht
  cases hf : s.faultReg with
  | some r =>
    rw [hf] at ht
    simp only [Option.isSome_some, if_true] at ht
    injection ht with ht
    exact ht ▸ .latched a rest h ha b w hc hb' (by simp [hf])
  | none =>
    rw [hf] at ht
    simp only [Option.isSome_none, Bool.false_eq_true, if_false, State.issueFree, State.moved_params] at ht
    cases hd : decode s.params.nNode w with
    | ok i =>
      rw [hd] at ht
      exact .command a rest h ha b w hc hb' hf i hd (by simp [State.nextInstr, hc, hb', hf, hd]) t ht
    | error e =>
      rw [hd] at ht
      exact State.raiseFault_eq_next.mp ht ▸
        .illegal a rest h ha b w hc hb' hf e hd (by simp [State.nextInstr, hc, hb', hf, hd])

/-- A write of a slot other than `CMD` leaves the bank as it was but for its operands. -/
theorem State.storeOperand_eq (s : State) (b : BankId) (i : Fin 16) (v : Word) :
    ∃ a0 a1 a2 a3 a4, s.storeOperand b i v =
      s.setBank b { s.bank b with arg0 := a0, arg1 := a1, arg2 := a2, arg3 := a3, arg4 := a4 } := by
  unfold State.storeOperand
  split
  case h_6 =>
    exact ⟨(s.bank b).arg0, (s.bank b).arg1, (s.bank b).arg2, (s.bank b).arg3, (s.bank b).arg4, by cases b <;> rfl⟩
  all_goals exact ⟨_, _, _, _, _, rfl⟩

/-- A write of slot 0 is a command. -/
theorem State.nextCommand_of_write {s : State} {b : BankId} {i : Fin 16} {v : Word} (h : s.nextWrite = some (b, i, v)) :
    s.nextCommand = if i = 0 then some (b, v) else none := by
  unfold State.nextWrite at h
  unfold State.nextCommand Input.command
  cases hs : s.schedule with
  | nil => simp [hs] at h
  | cons a rest =>
    simp only [hs, List.head?_cons, Option.bind_some] at h ⊢
    simp only [h]

/-- A port write of slot `i` that the host's access reaches. -/
theorem State.StepTo.ofPortWrite {s t : State} {a : Input} {rest : List Input} {b : BankId} {i : Fin 16} {v : Word}
    (h : s.schedule = a :: rest) (ha : a.isEvent = false) (hw : s.nextWrite = some (b, i, v))
    (ht : (s.moved rest).doPortWrite b i v = .next t) : s.StepTo t := by
  have hc := State.nextCommand_of_write hw
  by_cases hi : i = 0
  · subst hi
    exact .ofIssue h ha (by simpa using hc) ht
  rw [if_neg hi] at hc
  rw [State.doPortWrite, if_neg hi] at ht
  injection ht with ht
  obtain ⟨a0, a1, a2, a3, a4, e⟩ := s.storeOperand_eq b i v
  have he : { s.bank b with arg0 := a0, arg1 := a1, arg2 := a2, arg3 := a3, arg4 := a4 } = (s.storeOperand b i v).bank b := by
    rw [e]; cases b <;> rfl
  have em : (s.moved rest).storeOperand b i v = (s.moved rest).setBank b ((s.storeOperand b i v).bank b) := by
    unfold State.storeOperand
    split <;> cases b <;> rfl
  rw [em, ← he] at ht
  exact ht ▸ .operand a rest h ha hc b a0 a1 a2 a3 a4 i v hw hi he

/-- The window of an address of one of the two windows spans 64 bytes. -/
theorem windowOf_lt {p : Params} {addr : Word} {b : BankId} {x : Nat} (h : windowOf p addr = some (b, x)) : x < 64 := by
  unfold windowOf at h
  split at h
  · injection h with h; injection h with h1 h2; omega
  · split at h
    · injection h with h; injection h with h1 h2; omega
    · simp at h

/-- Every step is one of the ways of `StepTo`. -/
theorem step_to {s t : State} (ht : step s = .next t) : s.StepTo t := by
  cases hs : s.schedule with
  | nil =>
    rw [step_nil hs] at ht
    injection ht with ht
    exact ht ▸ .idle hs
  | cons a rest =>
    rw [step_cons hs] at ht
    cases a with
    | portRead b i =>
      injection ht with ht
      exact ht ▸ .read _ rest hs rfl (by simp [State.nextCommand, Input.command, Input.slotWrite, hs]) _
    | portWrite b i v => exact .ofPortWrite hs rfl (by simp [State.nextWrite, Input.slotWrite, hs]) ht
    | busRead addr width =>
      simp only [State.perform, State.busAccess, State.moved_params] at ht
      split at ht
      · simp at ht
      · split at ht
        · injection ht with ht
          exact ht ▸ .read _ rest hs rfl (by simp [State.nextCommand, Input.command, Input.slotWrite, hs]) _
        · simp at ht
    | busWrite addr width v =>
      simp only [State.perform, State.busAccess, State.moved_params] at ht
      split at ht
      · simp at ht
      · next b x hw =>
        split at ht
        · next hx =>
          obtain ⟨rfl, hx⟩ := hx
          refine .ofPortWrite hs rfl ?_ ht
          simp only [State.nextWrite, Input.slotWrite, hs, hw, hx, if_true, List.head?_cons, Option.bind_some]
        · simp at ht
    | lockSet => exact .event _ rest hs rfl t (State.event_to (by simp) ht)
    | waitStep b => exact .event _ rest hs rfl t (State.event_to (by simp) ht)
    | txDone n m => exact .event _ rest hs rfl t (State.event_to (by simp) ht)
    | rxFrame n f => exact .event _ rest hs rfl t (State.event_to (by simp) ht)
    | busError n v => exact .event _ rest hs rfl t (State.event_to (by simp) ht)
    | idleSeq n => exact .event _ rest hs rfl t (State.event_to (by simp) ht)
    | reset => exact .event _ rest hs rfl t (State.event_to (by simp) ht)

/-- Every step takes one input off the schedule. -/
theorem State.StepTo.schedule_eq {s t : State} (h : s.StepTo t) : t.schedule = s.schedule.tail := by
  cases h with
  | idle h => simp [h]
  | read a rest h => simp [h]
  | operand a rest h => simp [h]
  | ignored a rest h => simp [h]
  | latched a rest h => simp [h]
  | illegal a rest h => simp [h]
  | command a rest h ha b w hc hb hf i hd hi t ht =>
    rw [h]
    rcases exec_cases ht with ⟨c, rfl⟩ | ⟨c, _, rfl⟩ | hq
    · simp
    · simp
    · cases hq <;> simp
  | event a rest h ha t ht =>
    rw [h]
    cases ht <;> simp [State.resetBlock]

/-- No step changes the parameters (R8). -/
theorem State.StepTo.params_eq {s t : State} (h : s.StepTo t) : t.params = s.params := by
  cases h with
  | idle h => rfl
  | read | operand | ignored | latched | illegal => simp
  | command a rest h ha b w hc hb hf i hd hi t ht =>
    rcases exec_cases ht with ⟨c, rfl⟩ | ⟨c, _, rfl⟩ | hq
    · simp
    · simp
    · cases hq <;> simp
  | event a rest h ha t ht => cases ht <;> simp [State.resetBlock, State.resetWith]

/-- A run that is over stays over (R364): no command comes, and no event makes a bank busy or starts a recovery. -/
theorem State.StepTo.runOver_kept {s t : State} (h : s.StepTo t) (hs : s.runOver) : t.runOver := by
  have hsched : ∀ a ∈ t.schedule, a.command t.params = none := fun a ha => by
    rw [h.params_eq]
    exact hs.1 a (List.mem_of_mem_tail (h.schedule_eq ▸ ha))
  have none_left : ∀ {a rest b w}, s.schedule = a :: rest → s.nextCommand = some (b, w) → False := fun {a _ b w} h hc => by
    have : a.command s.params = some (b, w) := by simpa [State.nextCommand, h] using hc
    simp [hs.1 a (by simp [h])] at this
  obtain ⟨-, h0, h1, hf, hp, hr⟩ := hs
  have idle : ∀ b, (s.bank b).busy = false := fun b => by cases b <;> assumption
  suffices (∀ b, (t.bank b).busy = false) ∧ t.faultReg = none ∧ t.prot.word = 0 ∧ ∀ n, (t.node n).recovering = false from
    ⟨hsched, this.1 .fg, this.1 .irq, this.2⟩
  clear hsched
  cases h with
  | idle => exact ⟨idle, hf, hp, hr⟩
  | read => simp [idle, hf, hp, hr]
  | operand => simp [State.bank_setBank, apply_ite Bank.busy, idle, hf, hp, hr]
  | ignored a rest h _ b w hc | latched a rest h _ b w hc | illegal a rest h _ b w hc | command a rest h _ b w hc =>
    exact (none_left h hc).elim
  | event a rest h ha t ht =>
    cases ht with
    | ended b hb | locked b hb | lockTimeout b hb | counted b hb | recovEnded b hb | recovered b hb =>
      simp [idle] at hb
    | reset =>
      exact ⟨fun b => by cases b <;> rfl, rfl, show Prot.word ⟨false, false, .fg⟩ = 0 by decide, fun n => by
        simp [State.node, State.resetBlock, State.resetWith, NodeRegs.reset]⟩
    | _ =>
      simp [State.node_setNode, State.node_setMoBusy, State.node_storeFrame, apply_ite NodeRegs.recovering, idle, hf, hp, hr]

/-! ### Runs of more than one step -/

theorem run_succ_of_next (M : Host.Core) (k : Nat) {s t : M.State} (h : M.step s = .next t) :
    M.run (k + 1) s = M.run k t := by
  rw [Host.Core.run, h]

theorem run_succ_of_fault (M : Host.Core) (k : Nat) {s : M.State} {r : M.Fault} (h : M.step s = .fault r) :
    M.run (k + 1) s = .fault r := by
  rw [Host.Core.run, h]

theorem run_succ_of_refused (M : Host.Core) (k : Nat) {s : M.State} {r : M.Refusal} (h : M.step s = .refused r) :
    M.run (k + 1) s = .refused r := by
  rw [Host.Core.run, h]

/-- One step of this machine at the head of a run. -/
theorem core_run_succ (k : Nat) {s t : State} (h : step s = .next t) :
    Host.Core.run core (k + 1) s = Host.Core.run core k t :=
  run_succ_of_next core k h

/-- When the schedule is used up, a run stays where it is. -/
theorem core_run_nil (k : Nat) {s : State} (h : s.schedule = []) : Host.Core.run core k s = .next s := by
  induction k with
  | zero => rfl
  | succ k ih => exact (core_run_succ k (step_nil h)).trans ih

/-- A run of `k + 1` steps that answers a next state is a step and a run of `k`. -/
theorem core_run_succ_next {k : Nat} {s u : State} (h : Host.Core.run core (k + 1) s = .next u) :
    ∃ t, step s = .next t ∧ Host.Core.run core k t = .next u := by
  cases hs : step s with
  | next t => exact ⟨t, rfl, (core_run_succ k hs).symm.trans h⟩
  | fault r => exact absurd ((run_succ_of_fault core k hs).symm.trans h) (fun e => by injection e)
  | refused r => exact absurd ((run_succ_of_refused core k hs).symm.trans h) (fun e => by injection e)

end Sys2Proof.Machine
end

