-- ==== Sys2Proof/Machine/HostLines.lean ====
section
/-! DEFINITION. The host's side as the spec writes it: a command line as port writes (30_encoding.md R119) and the
pseudo-instructions (R120), which are host software: sequences of port accesses that look at `STAT` and `RES` between
them. Nothing here is part of the block's step; other agents may step between any two of these accesses. -/

namespace Sys2Proof.Machine

/-- An operand of a line: a number, or the `RES0` of the line's bank as the host reads it (`CLK_SETUP_CAN`, R120). -/
inductive LineOperand where
  | lit (v : Word)
  | res0
  deriving DecidableEq, Repr

/-- A command line `[@b] MNEMONIC[.n] op0, op1, …` (R119). -/
structure HostLine where
  bank : BankId
  instr : Instr
  ops : List LineOperand
  deriving DecidableEq, Repr

/-- The value of an operand, read from the port. -/
def LineOperand.value (s : State) (b : BankId) : LineOperand → Word
  | .lit v => v
  | .res0 => s.portRead b 8

/-- `PortWrite(b, 2+i, op_i)` for each operand from slot `i` on. -/
def operandWrites (s : State) (b : BankId) : Nat → List LineOperand → List Input
  | _, [] => []
  | i, o :: rest => .portWrite b (Fin.ofNat 16 (2 + i)) (o.value s b) :: operandWrites s b (i + 1) rest

/-- The port writes a line stands for: the operands in order, then `PortWrite(b, 0, OPC | n << 8)` (R119). -/
def HostLine.inputs (l : HostLine) (s : State) : List Input :=
  operandWrites s l.bank 0 l.ops ++ [.portWrite l.bank 0 (encode l.instr)]

/-- Host software made of lines: what comes after a line, or after a wait, depends on whether its result is `OK`. -/
inductive Script where
  | done
  | line (l : HostLine) (ifOk otherwise : Script)
  | wait (b : BankId) (ifOk otherwise : Script)
  deriving DecidableEq, Repr

/-- The port accesses of a script's first part; `WAIT` reads `STAT` (R120). -/
def Script.inputs (sc : Script) (s : State) : List Input :=
  match sc with
  | .done => []
  | .line l _ _ => l.inputs s
  | .wait b _ _ => [.portRead b 1]

/-- What remains of a script once those accesses are made, in the state after them: `WAIT` repeats until bit 8 of `STAT`
is 0, and the result is `STAT.CODE` (R120). -/
def Script.next (sc : Script) (s : State) : Script :=
  match sc with
  | .done => .done
  | .line l a b => if (s.portRead l.bank 1).extractLsb' 0 8 = ResultCode.ok.num then a else b
  | .wait b a c =>
    if (s.portRead b 1).getLsbD 8 then .wait b a c
    else if (s.portRead b 1).extractLsb' 0 8 = ResultCode.ok.num then a else c

/-- Lines in order, leaving to `after` at the end or at the first result other than `OK`. -/
def Script.lines (after : Script) : List HostLine → Script
  | [] => after
  | l :: rest => .line l (Script.lines after rest) after

/-- `sc`, and `after` at each of its ends. -/
def Script.andThen (after : Script) : Script → Script
  | .done => after
  | .line l a b => .line l (Script.andThen after a) (Script.andThen after b)
  | .wait b a c => .wait b (Script.andThen after a) (Script.andThen after c)

/-- The pseudo-instructions of R120. DESIGN CHOICE: R120 does not say what the `body` of `WITH_GUARD` is; here it is any
script of lines and waits (log 24). -/
inductive Pseudo where
  | canConfigure (n : NodeId) (bitrate sp tol : Word) (filters : List (Word × Word × Word))
  | wait
  | withGuard (body : Script)
  | clkSetupCan (fosc fcan : Word)
  | canRestart (n : NodeId) (timeout : Word)
  deriving DecidableEq, Repr

/-- The expansion column of R120, on bank `b`. DESIGN CHOICE (log 24): R120 runs `GUARD_REL` "on every exit of `body`" and
does not say what an exit is; here the exits of `body` are the ends of its script, whatever the last result was. A line
that answers `PENDING` ends nothing: `body` waits for it or not, as its script says. -/
def Pseudo.expand (b : BankId) : Pseudo → Script
  | .canConfigure n bitrate sp tol filters =>
    .lines .done (⟨b, .nodeConfigure n, [.lit bitrate, .lit sp, .lit tol]⟩ ::
      filters.map fun f => ⟨b, .mbxAlloc n, [.lit f.1, .lit f.2.1, .lit f.2.2]⟩)
  | .wait => .wait b .done .done
  | .withGuard body =>
    .line ⟨b, .guardAcq, []⟩ (.andThen (.line ⟨b, .guardRel, []⟩ .done .done) body) .done
  | .clkSetupCan fosc fcan =>
    let wait := Script.wait b .done .done
    .line ⟨b, .clkSelect, [.lit fosc, .lit fcan]⟩
      (.line ⟨b, .clkConfigure, [.lit fosc, .res0, .lit 0, .lit 0, .lit fcan]⟩ wait wait) .done
  | .canRestart n timeout =>
    let wait := Script.wait b (.line ⟨b, .nodeStart n, []⟩ .done .done) .done
    .line ⟨b, .nodeRecover n, [.lit timeout]⟩ wait wait

end Sys2Proof.Machine
end

