-- ==== Sys2Proof/Tests/Slice0.lean ====
section
/-! SUPPORT. Small tests. Every expected value comes from the spec: the decode words are written out from the opcode map of
30_encoding.md R104, the one-step tests are rows T<n> of 95_test_vectors.md, named in each test's comment, and the
`test_witness_` theorems show, for each statement with hypotheses, states and operands that meet them together. -/

open Sys2Proof Sys2Proof.Machine

namespace Sys2Proof.Tests

/- One kernel evaluation at a time: many at once ask for more stacks than a small memory limit allows. -/
set_option Elab.async false

/-! ## Helpers -/

/-- The default parameters with the open ones filled in (`L` = 2, two windows) and small search ranges. -/
def tp : Params :=
  { Config.defaults with
    pllLockMax := 2, portBase0 := 0x1000, portBase1 := 0x2000, pMax := 1, nMax := 21, kMax := 11, brpMax := 5 }

/-- Reset with those parameters. -/
def s0 : State := State.resetWith tp

/-- The step answers a next state of which `p` holds. -/
def shows (s : State) (p : State → Bool) : Bool :=
  match step s with
  | .next t => p t
  | _ => false

/-- The step of a state that `shows` a property. -/
theorem next_of_shows {s : State} {p : State → Bool} (h : shows s p = true) : ∃ t, step s = .next t ∧ p t = true := by
  unfold shows at h
  split at h
  · exact ⟨_, ‹_›, h⟩
  · cases h

/-- `s` with one input left. -/
def State1 (s : State) (a : Input) : State := s.moved [a]

/-- `s` about to take the write of a command's word on bank `b`, its operands in place. -/
def put (s : State) (b : BankId) (i : Instr) (a0 a1 a2 a3 a4 : Word := 0) : State :=
  State1 (s.setBank b { s.bank b with arg0 := a0, arg1 := a1, arg2 := a2, arg3 := a3, arg4 := a4 })
    (.portWrite b 0 (encode i))

/-- The state of a command on bank 0 with its operands in place. -/
def args (s : State) (a0 a1 a2 a3 a4 : Word := 0) : State :=
  s.setBank .fg { s.bank .fg with arg0 := a0, arg1 := a1, arg2 := a2, arg3 := a3, arg4 := a4 }

/-- The step leaves code `c` in `STAT[0]`, `BUSY` clear, and no fault. -/
def ends (s : State) (c : Nat) : Bool := shows s fun t => t.bank0.stat.toNat = c && t.faultReg = none

/-- The step ends in the fault latch with this `FAULT`, `STAT[0] = 0xFF`. -/
def latches (s : State) (f : Nat) : Bool := shows s fun t => (faultWord t.faultReg).toNat = f && t.bank0.stat = 0xFF

/-- T31: dividers applied for a 40 MHz CAN clock, the lock bit still 0. -/
def sSettling : State :=
  { s0 with
    pllstat := ⟨.prescaleSettling, false, true⟩, oscfreq := 20000000, pllcon := ⟨1, 20, 10⟩, ccucon := ⟨0, 0, 1⟩,
    fpll := 40000000, freqCan := 40000000 }

/-- The same with bank 0 waiting for the lock. -/
def sWaiting : State :=
  { sSettling with bank0 := { s0.bank0 with busy := true, code := .pending, waitKind := .lock, waitLim := 2 } }

/-- T42: locked at 40 MHz. -/
def sLocked : State := { sSettling with pllstat := ⟨.locked, true, true⟩ }

/-- T43: the lock timed out. -/
def sFailed : State := { sSettling with pllstat := ⟨.failed, false, true⟩ }

/-- A fault latched (T4). -/
def sFault : State :=
  { s0 with bank0 := { s0.bank0 with cmd := 4, code := .faulted }, faultReg := some ⟨.illegalCmd, 4, 0, .fg⟩ }

/-- The guard held by bank 0 (T15). -/
def held (s : State) : State := s.setProt ⟨true, true, .fg⟩

/-- Node 1's registers after `NODE_CONFIGURE.1 500000, 800, 10` with object 0 for Transmit and object 1 for Receive. -/
def r1 : NodeRegs :=
  { NodeRegs.reset with
    configured := true, nbtr := ⟨4, 15, 4, 4⟩, nbitrate := 500000, nsp := 800, nalloc := 3, ndir := 1 }

/-- The bring-up of node 1 in `Init`: object 1 takes standard frames of `0x120` under the mask `0x7F0`. -/
def sInit : State :=
  ((((({ sLocked with clken := ⟨false, false, true⟩ } : State).setNode 1 r1).mbxWrite 1 0 0 3).mbxWrite 1 1 0 1).mbxWrite
    1 1 2 0x120).mbxWrite 1 1 3 0x7F0

/-- Node 1 in state `x`. -/
def sNode (x : NodeState) : State := sInit.setNState 1 x

/-- Node 1 in `Normal` with Transmit object 0 busy. -/
def sBusyTx : State := (sNode .normal).setMoBusy 1 0 true

/-- Node 1 in `Normal` with a frame pending in Receive object 1: `DLC` = 3, identifier `0x125`. -/
def sPending : State := (sNode .normal).storeFrame 1 1 3 false false 0x125 0x332211 0

/-- Node 1 in `BusOff` recovering for bank 0 with the bound `lim`, `cnt` occurrences counted, object 0 busy. -/
def sRecov (lim : Word) (cnt : BitVec 8) : State :=
  (((sNode .busOff).setMoBusy 1 0 true).setNode 1
    { r1 with state := .busOff, recovering := true, recCnt := cnt, tec := 256, nbusy := 1 }).setBank .fg
    { s0.bank0 with busy := true, code := .pending, waitKind := .recov, waitNode := 1, waitLim := lim }

/-! ## Encoding -/

/-- Class C0, the words of R104. -/
theorem test_decode_c0 :
    decodeTableWord 32 0x00000000 = some .nop ∧ decodeTableWord 32 0x00000001 = some .guardAcq ∧
    decodeTableWord 32 0x00000002 = some .guardRel ∧ decodeTableWord 32 0x00000003 = some .regRead ∧
    decodeTableWord 32 0x00000010 = some .clkSelect ∧ decodeTableWord 32 0x00000011 = some .clkConfigure ∧
    decodeTableWord 32 0x00000012 = some .clkWaitLock ∧ decodeTableWord 32 0x00000013 = some .clkFreq ∧
    decodeTableWord 32 0x00000014 = some .clkReinit ∧ decodeTableWord 32 0x00000015 = some .clkDomainEnable ∧
    decodeTableWord 32 0x00000020 = some .btCompute := by decide +kernel

/-- Class CN of the pool and the interrupt boundary, node in bits `[11:8]` (R101, R104). -/
theorem test_decode_pool_irq :
    decodeTableWord 32 0b00000000000000000000000000110000 = some (.mbxAlloc 0) ∧
    decodeTableWord 32 0b00000000000000000000000100110001 = some (.mbxReleaseAll 1) ∧
    decodeTableWord 32 0b00000000000000000000001000110010 = some (.mbxRead 2) ∧
    decodeTableWord 32 0x00000350 = some (.irqEnable 3) ∧ decodeTableWord 32 0x00000151 = some (.irqDisable 1) ∧
    decodeTableWord 32 0x00000152 = some (.irqAck 1) := by decide +kernel

/-- Class CN of the node (R101, R104). -/
theorem test_decode_node :
    decodeTableWord 32 0b00000000000000000000001101000000 = some (.nodeConfigure 3) ∧
    decodeTableWord 32 0x00000041 = some (.nodeStart 0) ∧ decodeTableWord 32 0x00000142 = some (.nodeTransmit 1) ∧
    decodeTableWord 32 0x00000143 = some (.nodeTryReceive 1) ∧ decodeTableWord 32 0x00000244 = some (.nodeBusState 2) ∧
    decodeTableWord 32 0x00000145 = some (.nodeSleep 1) ∧ decodeTableWord 32 0x00000146 = some (.nodeWake 1) ∧
    decodeTableWord 32 0x00000147 = some (.nodeRecover 1) := by decide +kernel

/-- R106, each disjunct by its own name (T2, T3, T4, T5, T6, T7). -/
theorem test_decode_illegal :
    decode 4 0x00001000 = .error .reservedBits ∧ decode 4 0x80000000 = .error .reservedBits ∧
    decode 4 0x00000004 = .error .unknownOpcode ∧ decode 4 0x000000FF = .error .unknownOpcode ∧
    decode 4 0x00000101 = .error .nodeOnClassC0 ∧ decode 4 0x00000442 = .error .noSuchNode :=
  ⟨rfl, rfl, rfl, rfl, rfl, rfl⟩

/-- The encoder gives the words of the vectors' "word" columns (T25, T83a, T71, T90b). -/
theorem test_encode_words :
    encode .clkSelect = 0x00000010 ∧ encode (.nodeTransmit 1) = 0x00000142 ∧ encode (.mbxReleaseAll 2) = 0x00000231 ∧
    encode (.irqEnable 1) = 0x00000150 := by decide +kernel

/-- The one check of well-formedness refuses a node the block does not have, at the boundary (R102). -/
theorem test_wf_node :
    (Instr.nodeTransmit 4).wf 4 = false ∧ (Instr.nodeTransmit 3).wf 4 = true ∧ (Instr.irqAck 15).wf 16 = true ∧
    (Instr.mbxAlloc 15).wf 15 = false ∧ Instr.nop.wf 1 = true := by decide +kernel

/-- From reset a placed word is the very next instruction, whatever the open parameters are: `REG_READ 0` answers `ID`
(T92). -/
theorem test_placed_word_runs :
    shows (State.reset.withFetchWord 32 0x00000003) (fun t =>
      t.bank0.res0 = 0x00002004 && t.bank0.cmd = 3 && t.bank0.code = .ok) = true := by decide +kernel

/-- A line is its operand writes and then the `CMD` write (R119; P3 step 5 and P1 step 5 list the slots). -/
theorem test_line_encoding :
    (⟨.fg, .clkDomainEnable, [.lit 2]⟩ : HostLine).inputs s0 = [.portWrite .fg 2 2, .portWrite .fg 0 0x15] ∧
    (⟨.fg, .nodeRecover 0, [.lit 200]⟩ : HostLine).inputs s0 = [.portWrite .fg 2 200, .portWrite .fg 0 0x47] := by
  decide +kernel

/-- R120, `WITH_GUARD { NOP }`: the release follows the body whatever its result, and nothing follows a failed acquire. -/
theorem test_withGuard :
    let release := Script.line ⟨.fg, .guardRel, []⟩ .done .done
    Pseudo.expand .fg (.withGuard (.line ⟨.fg, .nop, []⟩ .done .done)) =
      .line ⟨.fg, .guardAcq, []⟩ (.line ⟨.fg, .nop, []⟩ release release) .done := by decide +kernel

/-! ## Issue and ports -/

/-- T2, T5, T6, T7: illegal words and the `FAULT` each leaves. -/
theorem test_illegal_faults :
    latches (State1 s0 (.portWrite .fg 0 0x1000)) 0x11 = true ∧ latches (State1 s0 (.portWrite .fg 0 0xFF)) 0xFF11 = true ∧
    latches (State1 s0 (.portWrite .fg 0 0x101)) 0x10111 = true ∧
    latches (State1 s0 (.portWrite .fg 0 0x442)) 0x44211 = true := by decide +kernel

/-- T9: the latch records bank 1. -/
theorem test_illegal_bank1 :
    shows (State1 s0 (.portWrite .irq 0 4)) (fun t =>
      faultWord t.faultReg = 0x01000411 && t.bank1.stat = 0xFF && t.bank0.stat = 0) = true := by decide +kernel

/-- T10: a write to a busy bank is ignored. T12: a write after a fault is refused. -/
theorem test_busy_and_faulted :
    shows (put sWaiting .fg .nop) (fun t => t.bank0.stat = 0x1FE && t.bank0.cmd = 0 && t.ignoredCmd) = true ∧
    shows (State1 sFault (.portWrite .fg 0 5)) (fun t =>
      t.bank0.cmd = 5 && t.bank0.stat = 0xFF && faultWord t.faultReg = 0x411) = true := by decide +kernel

/-- T13, T14: writes of `STAT`, `RES` and reserved slots are ignored, `ARG0` is its bank's own. -/
theorem test_port_slots :
    shows (State1 s0 (.portWrite .fg 1 0x55)) (fun t => t.bank0 = s0.bank0) = true ∧
    shows (State1 s0 (.portWrite .fg 8 0x55)) (fun t => t.bank0 = s0.bank0) = true ∧
    shows (State1 s0 (.portWrite .fg 2 0x55)) (fun t =>
      t.portRead .fg 2 = 0x55 && t.portRead .irq 2 = 0) = true := by decide +kernel

/-! ## Guard and system -/

/-- T1. -/
theorem test_nop : ends (put s0 .fg .nop) 0 = true := by decide +kernel

/-- T15, T16, T17, T18. -/
theorem test_guard_acq :
    shows (put s0 .fg .guardAcq) (fun t => t.bank0.stat = 0 && t.prot.word = 3) = true ∧
    shows (put s0 .irq .guardAcq) (fun t => t.bank1.stat = 0 && t.prot.word = 7) = true ∧
    ends (put (held s0) .fg .guardAcq) 0x10 = true ∧
    shows (put (held s0) .irq .guardAcq) (fun t => t.bank1.stat = 0x10 && t.prot.word = 3) = true := by decide +kernel

/-- T19, T20, T21. -/
theorem test_guard_rel :
    shows (put (held s0) .irq .guardRel) (fun t => t.bank1.stat = 0x11 && t.prot.word = 3) = true ∧
    shows (put (held s0) .fg .guardRel) (fun t => t.bank0.stat = 0 && t.prot.word = 0) = true ∧
    ends (put s0 .fg .guardRel) 0x11 = true := by decide +kernel

/-- T92, T92c. -/
theorem test_reg_read :
    shows (put s0 .fg .regRead 0) (fun t => t.bank0.res0 = 0x2004) = true ∧
    shows (put (held s0) .fg .regRead 1) (fun t => t.bank0.res0 = 3) = true := by decide +kernel

/-- T92a. -/
theorem test_reg_read_bad :
    ends (put s0 .fg .regRead 0x00C) 0x70 = true ∧ ends (put s0 .fg .regRead 0x500) 0x70 = true ∧
    ends (put s0 .fg .regRead 0x20B) 0x70 = true ∧ ends (put s0 .fg .regRead 0x016) 0x70 = true := by decide +kernel

/-! ## Clock tree -/

/-- T25 (its least triple lies in the small ranges too). -/
theorem test_clk_select :
    shows (put s0 .fg .clkSelect 20000000 40000000) (fun t =>
      t.bank0.code = .ok && t.bank0.res0 = 0x000A1401 && t.bank0.res1 = 40000000) = true := by decide +kernel

/-- T30h, T30i. -/
theorem test_clk_select_invalid :
    ends (put s0 .fg .clkSelect 7999999 40000000) 0x20 = true ∧ ends (put s0 .fg .clkSelect 20000000 0) 0x20 = true := by
  decide +kernel

/-- T31. -/
theorem test_clk_configure :
    shows (put s0 .fg .clkConfigure 20000000 0x000A1401 0 0 40000000) (fun t =>
      t.bank0.stat = 0x1FE && t.pllstat.word = 0x202 && t.oscfreq = 20000000 && t.pllcon.word = 0x000A1401 &&
      t.ccucon.word = 0x100 && t.fpll = 40000000 && t.freqCore = 0 && t.freqCan = 40000000 && t.bank0.waitCtl = 1 &&
      t.bank0.waitLim = 2 && t.bank0.waitCnt = 0 && t.prot.word = 0) = true := by decide +kernel

/-- T36, T37, T40, T22. -/
theorem test_clk_configure_errors :
    ends (put s0 .fg .clkConfigure 20000000 0x000A1300 0 0 40000000) 0x20 = true ∧
    latches (put s0 .fg .clkConfigure 20000000 0x010A1401 0 0 40000000) 0x1141 = true ∧
    ends (put sLocked .fg .clkConfigure) 0x22 = true ∧
    ends (put (held s0) .fg .clkConfigure 20000000 0x000A1401 0 0 40000000) 0x10 = true := by decide +kernel

/-- T45, T46, T47. -/
theorem test_clk_wait_lock :
    ends (put s0 .fg .clkWaitLock 5) 0x22 = true ∧
    shows (put sLocked .fg .clkWaitLock 0) (fun t => t.bank0.stat = 0x1FE && t.bank0.waitCtl = 1) = true ∧
    shows (put sFailed .fg .clkWaitLock 7) (fun t => t.bank0.stat = 0x1FE && t.bank0.waitLim = 7) = true := by
  decide +kernel

/-- T48's CAN reading, T49, T50. -/
theorem test_clk_freq :
    shows (put sLocked .fg .clkFreq 2) (fun t => t.bank0.res0 = 40000000) = true ∧
    shows (put sLocked .fg .clkFreq 5) (fun t => t.bank0.res0 = 40000000) = true ∧
    latches (put s0 .fg .clkFreq 6) 0x1341 = true ∧ ends (put s0 .fg .clkFreq 2) 0 = true := by decide +kernel

/-- T55, T56, T24. -/
theorem test_clk_reinit :
    shows (put sFailed .fg .clkReinit) (fun t =>
      t.bank0.stat = 0 && t.pllstat.word = 0 && t.oscfreq = 0 && t.pllcon.word = 0 && t.ccucon.word = 0 && t.fpll = 0 &&
      t.freqCan = 0) = true ∧
    ends (put sLocked .fg .clkReinit) 0x22 = true ∧ ends (put (held sFailed) .fg .clkReinit) 0x10 = true := by
  decide +kernel

/-- T51, T52, T54, and T53's code on bank 0. -/
theorem test_clk_domain_enable :
    shows (put sLocked .fg .clkDomainEnable 2) (fun t => t.bank0.stat = 0 && t.clken.word = 4) = true ∧
    ends (put sLocked .fg .clkDomainEnable 0) 0x20 = true ∧ latches (put s0 .fg .clkDomainEnable 6) 0x1541 = true ∧
    ends (put sSettling .fg .clkDomainEnable 2) 0x23 = true := by decide +kernel

/-- T41. -/
theorem test_lock_set :
    shows (State1 sSettling .lockSet) (fun t => t.pllstat.word = 0x302) = true := by decide +kernel

/-- T42, and T43's third poll. -/
theorem test_lock_poll :
    shows (State1 (sWaiting.setPll ⟨.prescaleSettling, true, true⟩) (.waitStep .fg)) (fun t =>
      t.bank0.stat = 0 && t.pllstat.word = 0x303 && t.bank0.waitCtl = 0) = true ∧
    shows (State1 (sWaiting.setBank .fg { sWaiting.bank0 with waitCnt := 2 }) (.waitStep .fg)) (fun t =>
      t.bank0.stat = 0x21 && t.pllstat.word = 0x204 && t.bank0.waitCnt = 2) = true := by decide +kernel

/-! ## Bit timing -/

/-- T57, T58 (the smaller prescaler range holds both). -/
theorem test_bt_compute :
    shows (put s0 .fg .btCompute 40000000 500000 800 10) (fun t =>
      t.bank0.stat = 0 && t.bank0.res0 = 0x440F0004 && t.bank0.res1 = 800 && t.bank0.res2 = 500000 &&
      t.bank0.res3 = 20) = true ∧
    shows (put s0 .fg .btCompute 40000000 500000 875 10) (fun t =>
      t.bank0.res0 = 0x220D0005 && t.bank0.res1 = 875 && t.bank0.res3 = 16) = true := by decide +kernel

/-- T63e, T63m, T63p, T63s. -/
theorem test_bt_compute_errors :
    ends (put s0 .fg .btCompute 40000000 500000 825 12) 0x30 = true ∧
    ends (put s0 .fg .btCompute 3000000 500000 800 10) 0x31 = true ∧
    ends (put s0 .fg .btCompute 40000000 1000 800 10) 0x32 = true ∧
    latches (put s0 .fg .btCompute 40000000 0 800 10) 0x2041 = true := by decide +kernel

/-! ## Mailbox pool -/

/-- T65, T67, T68, T69. -/
theorem test_mbx_alloc :
    shows (put s0 .fg (.mbxAlloc 0) 1) (fun t =>
      t.bank0.stat = 0 && t.bank0.res0 = 0 && t.moctrl 0 0 = 3 && (t.node 0).nalloc = 1 && (t.node 0).ndir = 1) = true ∧
    latches (put s0 .fg (.mbxAlloc 0) 8) 0x3041 = true ∧ latches (put s0 .fg (.mbxAlloc 0) 0 0x800) 0x3041 = true ∧
    latches (put s0 .fg (.mbxAlloc 0) 4 0 0x20000000) 0x3041 = true := by decide +kernel

/-- T66 on node 1, whose two objects are allocated already, and T64's last line. -/
theorem test_mbx_alloc_next :
    shows (put sInit .fg (.mbxAlloc 1) 6 0x100 0x1FFFFFFF) (fun t =>
      t.bank0.res0 = 2 && t.moctrl 1 2 = 0xD && t.mbxRead 1 2 2 = 0x100 && t.mbxRead 1 2 3 = 0x1FFFFFFF &&
      (t.node 1).nalloc = 7 && (t.node 1).ndir = 1) = true ∧
    ends (put (s0.setNode 2 { NodeRegs.reset with nalloc := 0xFFFFFFFF }) .fg (.mbxAlloc 2)) 0x40 = true := by
  decide +kernel

/-- T71 on node 1, T70. -/
theorem test_mbx_release_all :
    shows (put sInit .fg (.mbxReleaseAll 1)) (fun t => t.bank0.stat = 0 && (t.node 1).nalloc = 0 && t.mbx = []) = true ∧
    ends (put (sNode .normal) .fg (.mbxReleaseAll 1)) 0x50 = true := by decide +kernel

/-- T72 on node 1, T73, T74. -/
theorem test_mbx_read :
    shows (put sInit .fg (.mbxRead 1) 0) (fun t => t.bank0.res0 = 3 && t.bank0.res1 = 0 && t.bank0.res5 = 0) = true ∧
    latches (put s0 .fg (.mbxRead 0) 1) 0x3221 = true ∧ latches (put s0 .fg (.mbxRead 2) 32) 0x23221 = true := by
  decide +kernel

/-- T75, T76, T77. -/
theorem test_accepts_mask :
    sInit.accepts 1 1 false 0x123 = true ∧ sInit.accepts 1 1 false 0x133 = false ∧
    sInit.accepts 1 1 true 0x123 = false := by decide +kernel

/-- T80, T81. -/
theorem test_accepts_range :
    let ext := ((s0.mbxWrite 1 4 0 0xD).mbxWrite 1 4 2 0x100).mbxWrite 1 4 3 0x1FFFFFFF
    let none := ((s0.mbxWrite 1 4 0 0x5).mbxWrite 1 4 2 0x200).mbxWrite 1 4 3 0x100
    ext.accepts 1 4 true 0x100 = true ∧ ext.accepts 1 4 true 0x0FF = false ∧ none.accepts 1 4 false 0x180 = false := by
  decide +kernel

/-! ## CAN node -/

/-- T82c. -/
theorem test_node_configure :
    shows (put sLocked .fg (.nodeConfigure 0) 500000 800 10) (fun t =>
      t.bank0.stat = 0 && t.bank0.res0 = 0x440F0004 && t.bank0.res1 = 800 && t.bank0.res2 = 500000 && t.bank0.res3 = 20 &&
      (t.node 0).nbtr.word = 0x440F0004 && (t.node 0).nbitrate = 500000 && (t.node 0).nsp = 800 &&
      (t.node 0).nstat = 0x10) = true := by decide +kernel

/-- T82a, T82h, T23. -/
theorem test_node_configure_errors :
    ends (put s0 .fg (.nodeConfigure 0) 500000 800 10) 0x23 = true ∧
    latches (put s0 .fg (.nodeConfigure 0) 0 800 10) 0x4041 = true ∧
    ends (put (held sLocked) .fg (.nodeConfigure 1) 500000 800 10) 0x10 = true := by decide +kernel

/-- T82, T82e, T82f (its second line, on node 1). -/
theorem test_node_start :
    ends (put s0 .fg (.nodeStart 0)) 0x51 = true ∧
    ends (put (sInit.setClken ⟨false, false, false⟩) .fg (.nodeStart 1)) 0x24 = true ∧
    shows (put sInit .fg (.nodeStart 1)) (fun t => t.bank0.stat = 0 && (t.node 1).nstat = 0x11) = true := by
  decide +kernel

/-- T83a, T84 (one Transmit object here). -/
theorem test_node_transmit :
    shows (put (sNode .normal) .fg (.nodeTransmit 1) 0x04 0x10 0xA1A2A3A4 0) (fun t =>
      t.bank0.stat = 0 && t.bank0.res0 = 0 && t.moctrl 1 0 = 0x413 && t.mbxRead 1 0 1 = 0x10 &&
      t.mbxRead 1 0 4 = 0xA1A2A3A4 && t.mbxRead 1 0 5 = 0 && (t.node 1).nbusy = 1) = true ∧
    ends (put sBusyTx .fg (.nodeTransmit 1) 0 0x11) 0x60 = true := by decide +kernel

/-- T83b on object 0: a remote frame stores no data. T93, T93b, T93c, T93d: operand checks in their order. -/
theorem test_node_transmit_more :
    shows (put (sNode .normal) .fg (.nodeTransmit 1) 0x38 0x1ABCDEF0 0xFFFFFFFF 0xFFFFFFFF) (fun t =>
      t.moctrl 1 0 = 0x3813 && t.mbxRead 1 0 1 = 0x1ABCDEF0 && t.mbxRead 1 0 4 = 0 && t.mbxRead 1 0 5 = 0) = true ∧
    latches (put s0 .fg (.nodeTransmit 0) 9) 0x4231 = true ∧ latches (put s0 .fg (.nodeTransmit 0) 0x40) 0x4241 = true ∧
    latches (put s0 .fg (.nodeTransmit 0) 0 0x800) 0x4241 = true ∧
    latches (put s0 .fg (.nodeTransmit 0) 0x49) 0x4241 = true := by decide +kernel

/-- P2 steps 10 and 11, on node 1. -/
theorem test_node_try_receive :
    shows (put sPending .fg (.nodeTryReceive 1)) (fun t =>
      t.bank0.stat = 0 && t.bank0.res0 = 0x80000103 && t.bank0.res1 = 0x125 && t.bank0.res2 = 0x332211 &&
      t.bank0.res3 = 0 && t.moctrl 1 1 = 0x301 && (t.node 1).nbusy = 0) = true ∧
    ends (put (sNode .normal) .fg (.nodeTryReceive 1)) 0x01 = true := by decide +kernel

/-- T87e, P3 step 3. -/
theorem test_node_bus_state :
    shows (put s0 .fg (.nodeBusState 2)) (fun t => t.bank0.res0 = 0 && t.bank0.stat = 0) = true ∧
    shows (put (sNode .busOff) .fg (.nodeBusState 1)) (fun t => t.bank0.res0 = 3) = true := by decide +kernel

/-- T87 without its lost frame, T87c. -/
theorem test_node_sleep_wake :
    shows (put (sNode .normal) .fg (.nodeSleep 1)) (fun t => (t.node 1).nstat = 0x12) = true ∧
    shows (put (sNode .sleep) .fg (.nodeWake 1)) (fun t => (t.node 1).nstat = 0x11) = true ∧
    ends (put (sNode .normal) .fg (.nodeWake 1)) 0x52 = true ∧ ends (put s0 .fg (.nodeSleep 0)) 0x52 = true := by
  decide +kernel

/-- P3 step 5 (bound 200), T87e. -/
theorem test_node_recover :
    shows (put (sNode .busOff) .fg (.nodeRecover 1) 200) (fun t =>
      t.bank0.stat = 0x1FE && (t.node 1).nstat = 0x53 && t.bank0.waitCtl = 0x12 && t.bank0.waitLim = 200) = true ∧
    ends (put s0 .fg (.nodeRecover 0) 1) 0x52 = true := by decide +kernel

/-! ## Interrupt boundary -/

/-- T90, T90a, T91. -/
theorem test_irq_enable :
    shows (put s0 .fg (.irqEnable 0) 1 5) (fun t => (t.node 0).nieWord = 0x00050002) = true ∧
    shows (put s0 .fg (.irqEnable 1) 2 255) (fun t => (t.node 1).nieWord = 0xFF000004) = true ∧
    latches (put s0 .fg (.irqEnable 0) 3 0) 0x5041 = true ∧ latches (put s0 .fg (.irqEnable 0) 0 256) 0x5041 = true := by
  decide +kernel

/-- T90e, T90f, T91. -/
theorem test_irq_ack_disable :
    let e := s0.setNode 1 { NodeRegs.reset with
      nie := ⟨true, false, true⟩, prio := ⟨0, 0, 255⟩, nip := ⟨true, false, true⟩ }
    let d := s0.setNode 1 { NodeRegs.reset with
      nie := ⟨true, false, true⟩, prio := ⟨0, 0, 255⟩, nip := ⟨false, false, true⟩ }
    shows (put e .irq (.irqAck 1) 0) (fun t => t.bank1.stat = 0 && (t.node 1).nip.word = 4) = true ∧
    shows (put d .irq (.irqDisable 1) 2) (fun t => (t.node 1).nieWord = 1 && (t.node 1).nip.word = 0) = true ∧
    latches (put s0 .fg (.irqDisable 0) 3) 0x5141 = true ∧ latches (put s0 .fg (.irqAck 0) 3) 0x5241 = true := by
  decide +kernel

/-! ## Hardware events and faults -/

/-- P2 step 7, on node 1. -/
theorem test_tx_done :
    shows (State1 sBusyTx (.txDone 1 0)) (fun t =>
      t.moctrl 1 0 = 3 && (t.node 1).nbusy = 0 && (t.node 1).nip.word = 0) = true := by decide +kernel

/-- P2 step 8, on node 1 with `RXP` enabled. -/
theorem test_rx_frame :
    shows (State1 ((sNode .normal).setNode 1 { r1 with state := .normal, nie := ⟨false, true, false⟩ })
      (.rxFrame 1 ⟨false, false, 3, 0x125, 0x44332211, 0x55⟩)) (fun t =>
        t.moctrl 1 1 = 0x311 && t.mbxRead 1 1 1 = 0x125 && t.mbxRead 1 1 4 = 0x332211 && t.mbxRead 1 1 5 = 0 &&
        (t.node 1).nbusy = 2 && (t.node 1).nip.word = 2 && t.irqLine 1 .rxp) = true := by decide +kernel

/-- T88a, T88b. -/
theorem test_bus_error :
    shows (State1 (sNode .normal) (.busError 1 255)) (fun t =>
      (t.node 1).tec = 255 && (t.node 1).state = .normal) = true ∧
    shows (State1 (sNode .normal) (.busError 1 256)) (fun t =>
      (t.node 1).tec = 256 && (t.node 1).state = .busOff && (t.node 1).recCnt = 0) = true := by decide +kernel

/-- P3 step 8 on node 1, T89's poll. -/
theorem test_recovery_poll :
    shows (State1 (sRecov 200 128) (.waitStep .fg)) (fun t =>
      t.bank0.stat = 0 && (t.node 1).nstat = 0x10 && (t.node 1).tec = 0 && t.moctrl 1 0 = 3 && (t.node 1).nbusy = 0) =
      true ∧
    shows (State1 (sRecov 0 0) (.waitStep .fg)) (fun t => t.bank0.stat = 0x53 && (t.node 1).nstat = 0x13) = true := by
  decide +kernel

/-- T94: bank 1 faults while bank 0 waits. -/
theorem test_fault_aborts_waits :
    shows (put sWaiting .irq (.mbxRead 1) 0) (fun t =>
      faultWord t.faultReg = 0x01013221 && t.bank1.stat = 0xFF && t.bank0.stat = 0xFF && t.bank0.waitCtl = 0 &&
      t.pllstat.word = 0x202) = true := by decide +kernel

/-- T94b. -/
theorem test_reset :
    shows (State1 sFault .reset) (fun t => faultWord t.faultReg = 0 && t.bank0 = Bank.reset && t.pllstat.word = 0) =
      true := by decide +kernel

/-! ## Witnesses: for each statement with hypotheses, states and operands that meet them, each clause at a boundary -/

/-- A well-formed command with the greatest node index of a 16-node block, and one of class C0. -/
theorem test_witness_DecodeOfEncodeIsTheCommand :
    (Instr.irqAck 15).wf 16 = true ∧ Instr.nop.wf 1 = true := by decide +kernel

theorem test_witness_DecodedWordIsItsEncoding :
    decode 4 0x00000342 = .ok (.nodeTransmit 3) ∧ decode 16 0x00000F52 = .ok (.irqAck 15) := ⟨rfl, rfl⟩

/-- The four cases of R106, the last at `NODE = N_NODE`; each word is issued on a free bank without a latched fault. -/
theorem test_witness_IllegalWordsAreExactlyTheListed :
    (0x00001000 / 4096 ≠ 0 ∧ 0x00000004 % 256 = 4 ∧ 0x00000101 / 256 % 16 ≠ 0 ∧ s0.params.nNode ≤ 0x00000442 / 256 % 16) ∧
    (s0.bank .fg).busy = false ∧ s0.faultReg = none ∧
    ([0x00001000, 0x00000004, 0x00000101, 0x00000442] : List Word).all (fun w =>
      let s := State1 s0 (.portWrite .fg 0 w)
      s.schedule = [.portWrite .fg 0 w] && shows s (fun t => t.bank0.code = .faulted)) = true := by decide +kernel

theorem test_witness_StepRunsTheDecodedCommand :
    let s := put s0 .irq (.nodeTransmit 3)
    s.schedule = .portWrite .irq 0 0x00000342 :: [] ∧ (s.bank .irq).busy = false ∧ s.faultReg = none ∧
    decode s.params.nNode 0x00000342 = .ok (.nodeTransmit 3) := ⟨rfl, rfl, rfl, rfl⟩

/-- A busy bank; and a free bank after a fault. -/
theorem test_witness_BusyBankIgnoresAndFaultRefuses :
    (State1 sWaiting (.portWrite .fg 0 4)).schedule = [.portWrite .fg 0 4] ∧ (sWaiting.bank .fg).busy = true ∧
    (sFault.bank .fg).busy = false ∧ sFault.faultReg ≠ none := by decide +kernel

/-- The three outcomes, each from a free bank of a block without a fault. -/
theorem test_witness_EveryCommandHasOneOutcome :
    s0.cur.busy = false ∧ s0.faultReg = none ∧ ends (put s0 .fg .nop) 0 = true ∧
    shows (put s0 .fg .clkConfigure 20000000 0x000A1401 0 0 40000000) (fun t => t.bank0.busy) = true ∧
    latches (put s0 .fg (.mbxRead 0)) 0x3221 = true := by decide +kernel

/-- A read of every slot, the reserved ones included, and a write of the first and last slot each clause names. -/
theorem test_witness_PortSlotsReadAndWrite :
    (∀ i : Fin 16, (State1 s0 (.portRead .irq i)).schedule = [.portRead .irq i] ∧
      shows (State1 s0 (.portRead .irq i)) (fun t => t.readData = 0) = true) ∧
    ∀ i ∈ ([1, 2, 3, 4, 5, 6, 7, 15] : List (Fin 16)),
      shows (State1 s0 (.portWrite .irq i 9)) (fun t => t.portRead .irq i = if i = 1 ∨ 7 ≤ i.val then 0 else 9) = true ∧
      shows (State1 sFault (.portWrite .irq i 9)) (fun t =>
        t.portRead .irq i = if i = 1 ∨ 7 ≤ i.val then 0 else 9) = true := by
  decide +kernel

/-- The first and last slot of each window, a misaligned and a narrow access, and addresses just outside. -/
theorem test_witness_BusAccessesReachTheSlots :
    tp.portsDisjoint ∧
    shows (State1 s0 (.busWrite (tp.portBase .irq + 4 * 2) .word 7)) (fun t => t.bank1.arg0 = 7) = true ∧
    shows (State1 s0 (.busRead (tp.portBase .fg + 4 * 15) .word)) (fun t => t.readData = 0) = true ∧
    ([0x1001, 0x103F, 0x2002] : List Word).all (fun a =>
      step (State1 s0 (.busRead a .word)) matches .refused .narrowPortAccess) = true ∧
    (step (State1 s0 (.busWrite 0x1000 .byte 1)) matches .refused .narrowPortAccess) ∧
    (step (State1 s0 (.busRead 0x103C .half)) matches .refused .narrowPortAccess) ∧
    ([0xFFF, 0x1040, 0x1FFF, 0x2040] : List Word).all (fun a =>
      step (State1 s0 (.busRead a .word)) matches .fault (.noSuchPortAddress _)) = true := by decide +kernel

/-- The `ID` of the largest block R9 allows. -/
theorem test_witness_RegisterWordsPlaceTheirFields :
    let p : Params := { tp with nNode := 16 }
    p.nNode < 2 ^ 5 ∧ p.nMbx < 2 ^ 6 ∧ (idWord p).toNat = 16 + 2 ^ 8 * 32 := by decide +kernel

/-- The first and last id of each group of R57 answers; the ids next to each group do not. -/
theorem test_witness_RegReadAnswersTheTable :
    s0.params.nNode ≤ 16 ∧
    ([0x000, 0x00B, 0x010, 0x015, 0x100, 0x10A, 0x400, 0x40A] : List Word).all (fun id =>
      ends (put s0 .fg .regRead id) 0) = true ∧
    ([0x00C, 0x00F, 0x016, 0x0FF, 0x10B, 0x1FF, 0x40B, 0x500, 0xFFFFFFFF] : List Word).all (fun id =>
      ends (put s0 .fg .regRead id) 0x70) = true := by decide +kernel

/-- A held guard, a free one, and a release by the bank that is not the owner. -/
theorem test_witness_GuardCommandsSwitchTheGuard :
    (held s0).prot.held = true ∧ s0.prot.held = false ∧
    (({ held s0 with issuer := .irq } : State).prot.owner ≠ ({ held s0 with issuer := .irq } : State).issuer) := by
  decide +kernel

/-! ### Clock tree -/

/-- The bounded search decides the least triple: outside the ranges no triple is in the set. -/
theorem leastTriple_of_bounded (pr : Params) (fosc ftgt p n k : Nat) (h : tripleOk pr fosc p n k = true)
    (hb : ∀ p' < pr.pMax + 1, ∀ n' < pr.nMax + 1, ∀ k' < pr.kMax + 1, (!tripleOk pr fosc p' n' k' ||
      (absDiff (fPll fosc p n k) ftgt < absDiff (fPll fosc p' n' k') ftgt ||
      (absDiff (fPll fosc p n k) ftgt = absDiff (fPll fosc p' n' k') ftgt &&
        (p < p' || (p = p' && (n < n' || (n = n' && k ≤ k'))))))) = true) :
    leastTriple pr fosc ftgt p n k := by
  refine ⟨h, fun p' n' k' h' => ?_⟩
  have h2 := h'
  simp only [tripleOk, Bool.and_eq_true, decide_eq_true_eq] at h2
  simpa [h'] using hb p' (by omega) n' (by omega) k' (by omega)

/-- T25: the triple found; a target whose best triple misses the tolerance; an oscillator at its bound with an empty set;
and the three operands refused at once. -/
theorem test_witness_ClkSelectFindsTheLeastTriple :
    tp.wf ∧ leastTriple tp 20000000 40000000 1 20 10 ∧
    ¬(tp.clkTolPpm * 40000000 < absDiff (fPll 20000000 1 20 10) 40000000 * 1000000) ∧
    leastTriple tp 20000000 39000000 1 21 11 ∧
    tp.clkTolPpm * 39000000 < absDiff (fPll 20000000 1 21 11) 39000000 * 1000000 ∧
    (∀ p n k : Nat, tripleOk tp 8000000 p n k = false) ∧
    (7999999 < tp.fOscMin ∧ tp.fOscMin ≤ 8000000 ∧ 40000000 ≤ tp.fOscMax ∧ tp.fOscMax < 40000001) := by
  refine ⟨by decide +kernel, leastTriple_of_bounded _ _ _ _ _ _ (by decide +kernel) (by decide +kernel), by decide +kernel,
    leastTriple_of_bounded _ _ _ _ _ _ (by decide +kernel) (by decide +kernel), by decide +kernel, fun p n k => ?_,
    by decide +kernel⟩
  have hb : ∀ p < tp.pMax + 1, ∀ n < tp.nMax + 1, ∀ k < tp.kMax + 1, tripleOk tp 8000000 p n k = false := by
    decide +kernel
  cases h : tripleOk tp 8000000 p n k with
  | false => rfl
  | true =>
    have h2 := h
    simp only [tripleOk, Bool.and_eq_true, decide_eq_true_eq] at h2
    rw [hb p (by omega) n (by omega) k (by omega)] at h
    cases h

/-- T31 is valid; a target of 0 is an unused domain; T35 misses the tolerance. -/
theorem test_witness_ClockValidityIsItsListOfBounds :
    clkValid tp 20000000 1 20 10 0 0 40000000 = true ∧ clkValid tp 20000000 1 20 10 0 0 0 = true ∧
    clkValid tp 20000000 1 20 10 0 0 39000000 = false := by decide +kernel

/-- Each arm: the smallest reserved bit, a locked PLL, T36, a held guard, T31. -/
theorem test_witness_ClkConfigureProgramsAndWaits :
    latches (put s0 .fg .clkConfigure 20000000 0x01000000) 0x1141 = true ∧
    sLocked.pllstat.state ≠ .disabled ∧ sLocked.pllstat.state ≠ .freeRunning ∧
    clkValid tp 20000000 0 19 10 0 0 40000000 = false ∧ clkValid tp 20000000 1 20 10 0 0 40000000 = true ∧
    s0.pllstat.state = .disabled ∧ s0.prot.held = false ∧ (held s0).prot.held = true := by decide +kernel

/-- A state for each arm. -/
theorem test_witness_ClkWaitLockAndReinit :
    s0.pllstat.state = .disabled ∧ sSettling.pllstat.state = .prescaleSettling ∧ sFailed.pllstat.state = .failed ∧
    sFailed.prot.held = false ∧ (held sFailed).prot.held = true := by decide +kernel

/-- The last domain id and the one after it; an unused domain, one in use, and a PLL that is not locked. -/
theorem test_witness_DomainCommandsFollowTheDomain :
    ¬(2 + sLocked.params.nNode ≤ 5) ∧ 2 + sLocked.params.nNode ≤ 6 ∧ sLocked.pllstat.state = .locked ∧
    sLocked.freqCore = 0 ∧ sLocked.freqCan ≠ 0 ∧ sSettling.pllstat.state ≠ .locked := by decide +kernel

/-! ### Bit timing -/

/-- The bounded search decides the best candidate. -/
theorem btBest_of_bounded (pr : Params) (clk br sp brp tseg1 : Nat) (h : btCandidate pr clk br brp tseg1)
    (hb : ∀ b < pr.brpMax + 1, ∀ t < pr.tseg1Max + 1, (!decide (btCandidate pr clk br b t) ||
      (btDev sp (clk / (brp * br)) tseg1 * (clk / (b * br)) < btDev sp (clk / (b * br)) t * (clk / (brp * br)) ||
      (btDev sp (clk / (brp * br)) tseg1 * (clk / (b * br)) = btDev sp (clk / (b * br)) t * (clk / (brp * br)) &&
        (brp < b || (brp = b && tseg1 ≤ t))))) = true) :
    btBest pr clk br sp brp tseg1 := by
  refine ⟨h, fun b t h' => ?_⟩
  have := hb b (by have := h'.1; omega) t (by have := h'.2.2.2.2; omega)
  rw [decide_eq_true h'] at this
  simpa using this

/-- The bounded search decides that there is no candidate. -/
theorem noCandidate_of_bounded (pr : Params) (clk br : Nat)
    (hb : ∀ b < pr.brpMax + 1, ∀ t < pr.tseg1Max + 1, ¬btCandidate pr clk br b t) :
    ∀ b t : Nat, ¬btCandidate pr clk br b t :=
  fun b t h => hb b (by have := h.1; omega) t (by have := h.2.2.2.2; omega) h

/-- T57 and its best candidate; T63e, whose best misses the tolerance; a rate that divides no clock (as T63k); T63i and the last clock
frequency in range as the two bounds. -/
theorem test_witness_BitTimingSearchKeepsTheFirstBest :
    tp.wf ∧ btBest tp 40000000 500000 800 4 15 ∧ btBest tp 40000000 500000 825 5 12 ∧
    12 * (40000000 / (5 * 500000)) < btDev 825 (40000000 / (5 * 500000)) 12 ∧
    (∀ b t : Nat, ¬btCandidate tp 40000000 700000 b t) ∧
    (tp.nqMin * 500000 ≤ 4000000 ∧ 4000000 ≤ tp.brpMax * tp.nqMax * 500000) ∧
    (tp.nqMin * 1000 ≤ 125000 ∧ 125000 ≤ tp.brpMax * tp.nqMax * 1000) :=
  ⟨by decide +kernel, btBest_of_bounded _ _ _ _ _ _ (by decide +kernel) (by decide +kernel),
    btBest_of_bounded _ _ _ _ _ _ (by decide +kernel) (by decide +kernel), by decide +kernel,
    noCandidate_of_bounded _ _ _ (by decide +kernel), by decide +kernel, by decide +kernel⟩

/-- The arms at their bounds: bit rate 0, sample points 1000 and 1001, one below and one above the range of clocks; the
search's arms are those of the statement above. -/
theorem test_witness_BtComputeAnswersTheSearch :
    s0.params.wf ∧ latches (put s0 .fg .btCompute 40000000 0 800) 0x2041 = true ∧
    latches (put s0 .fg .btCompute 40000000 500000 1001) 0x2041 = true ∧
    ends (put s0 .fg .btCompute 40000000 500000 1000 1000) 0 = true ∧
    ends (put s0 .fg .btCompute 3999999 500000 800 50) 0x31 = true ∧
    ends (put s0 .fg .btCompute 4000000 500000 800 50) 0 = true ∧
    ends (put s0 .fg .btCompute 125000 1000 800 1000) 0 = true ∧
    ends (put s0 .fg .btCompute 125001 1000 800 1000) 0x32 = true := by decide +kernel

theorem test_witness_BitTimingResultsAreSound :
    tp.wf ∧ (match btCompute tp 40000000 500000 800 10 with
      | .ok r => decide (r = ⟨4, 15, 4, 4, 20, 800, 500000⟩)
      | .error _ => false) = true ∧
    (match btCompute tp 40000000 700000 800 10 with
      | .ok _ => false
      | .error c => decide (c = .btUnachievable)) = true := by decide +kernel

/-! ### Mailbox pool -/

/-- The last byte below and the first byte at `DLC`, in either data word, and a remote frame. -/
theorem test_witness_MaskingKeepsTheFirstBytes :
    (3 < 8 ∧ ¬(4 ≤ 3) ∧ payloadByte (maskData 4 false 0xFFFFFFFF 0xFFFFFFFF).1 (maskData 4 false 0xFFFFFFFF 0xFFFFFFFF).2 3 =
      0xFF) ∧
    payloadByte (maskData 4 false 0xFFFFFFFF 0xFFFFFFFF).1 (maskData 4 false 0xFFFFFFFF 0xFFFFFFFF).2 4 = 0 ∧
    payloadByte (maskData 8 false 0xFFFFFFFF 0xFFFFFFFF).1 (maskData 8 false 0xFFFFFFFF 0xFFFFFFFF).2 7 = 0xFF ∧
    payloadByte (maskData 8 true 0xFFFFFFFF 0xFFFFFFFF).1 (maskData 8 true 0xFFFFFFFF 0xFFFFFFFF).2 0 = 0 := by
  decide +kernel

/-- A node whose objects below the last are allocated, for the last index. -/
def sAlmostFull : State := s0.setNode 3 { NodeRegs.reset with nalloc := 0x7FFFFFFF }

/-- Each arm of `MBX_ALLOC` at its bound: the smallest illegal operands, a node that runs, a full pool, the first and the
last object. -/
theorem test_witness_MbxAllocTakesTheFirstFree :
    sAlmostFull.mbx.wf ∧ sAlmostFull.params.nMbx ≤ 32 ∧ (sAlmostFull.node 3).state = .init ∧
    (sAlmostFull.node 3).nalloc.toNat ≠ 2 ^ 32 - 1 ∧ 31 < sAlmostFull.params.nMbx ∧
    (sAlmostFull.node 3).nalloc.getLsbD 31 = false ∧ (∀ k < 31, (sAlmostFull.node 3).nalloc.getLsbD k = true) ∧
    shows (put sAlmostFull .fg (.mbxAlloc 3) 0 0x7FF 0x7FF) (fun t => t.bank0.res0 = 31) = true ∧
    latches (put s0 .fg (.mbxAlloc 0) 7 0x20000000) 0x3041 = true ∧
    ends (put s0 .fg (.mbxAlloc 0) 7 0x1FFFFFFF 0x1FFFFFFF) 0 = true ∧
    ends (put (sNode .sleep) .fg (.mbxAlloc 1)) 0x50 = true := by decide +kernel

theorem test_witness_MbxReleaseAllEmptiesThePool :
    sInit.mbx.wf ∧ sInit.params.nMbx ≤ 32 ∧ (sInit.node 1).state = .init ∧ (sNode .busOff).mbx.wf ∧
    ((sNode .busOff).node 1).state ≠ .init := by decide +kernel

/-- The index at `N_MBX`, an object that is free, one that is allocated. -/
theorem test_witness_MbxReadReturnsTheSixWords :
    sInit.params.nMbx ≤ 32 ∧ ¬(sInit.params.nMbx ≤ 31) ∧ (sInit.node 1).nalloc.getLsbD 31 = false ∧
    (sInit.node 1).nalloc.getLsbD 1 = true := by decide +kernel

/-! ### CAN node -/

/-- Each arm: operands at their bounds, a node that runs, a PLL that is not locked, a rate without a timing, a held guard,
T82c. -/
theorem test_witness_NodeConfigureAppliesTheTiming :
    sLocked.mbx.wf ∧ sLocked.params.nMbx ≤ 32 ∧
    latches (put sLocked .fg (.nodeConfigure 0) 500000 1001) 0x4041 = true ∧
    ends (put (sNode .normal) .fg (.nodeConfigure 1) 500000 1000 1000) 0x50 = true ∧
    ends (put sSettling .fg (.nodeConfigure 1) 500000 800 10) 0x23 = true ∧
    ends (put sLocked .fg (.nodeConfigure 1) 700000 800 100) 0x30 = true ∧ (held sLocked).prot.held = true ∧
    (match btCompute sLocked.params sLocked.freqCan.toNat 500000 800 10 with
      | .ok r => decide (r.nq = 20)
      | .error _ => false) = true ∧
    (match btCompute sLocked.params sLocked.freqCan.toNat 700000 800 100 with
      | .ok _ => false
      | .error c => decide (c = .btUnachievable)) = true := by decide +kernel

theorem test_witness_NodeConfigureRoundTrips :
    sLocked.params.wf ∧ sLocked.mbx.wf ∧
    (match exec (.nodeConfigure 15) (args sLocked 500000 800 10) with
      | .next t => decide (t.cur.code = .ok)
      | _ => false) = true := by decide +kernel

/-- A state for each arm of the three commands. -/
theorem test_witness_NodeModeCommandsMoveTheState :
    (sInit.node 1).state = .init ∧ (sInit.node 1).configured = true ∧ (sInit.node 1).nalloc ≠ 0 ∧
    sInit.clken.can = true ∧ sLocked.clken.can = false ∧ (s0.node 1).configured = false ∧
    ((sNode .normal).node 1).state = .normal ∧ ((sNode .sleep).node 1).state = .sleep := by decide +kernel

/-- Each arm at its bound: reserved bit 6, `DLC` 8 and 9, identifiers one too wide, a node that does not run, no idle
object, and object 0 idle. -/
theorem test_witness_NodeTransmitClaimsTheLowestIdle :
    (sNode .normal).mbx.wf ∧ (sNode .normal).params.nMbx ≤ 32 ∧
    latches (put (sNode .normal) .fg (.nodeTransmit 1) 0x40) 0x14241 = true ∧
    latches (put (sNode .normal) .fg (.nodeTransmit 1) 0x3F) 0x14231 = true ∧
    latches (put (sNode .normal) .fg (.nodeTransmit 1) 0x28 0x20000000) 0x14241 = true ∧
    ends (put (sNode .normal) .fg (.nodeTransmit 1) 0x28 0x1FFFFFFF) 0 = true ∧
    ends (put (sNode .init) .fg (.nodeTransmit 1) 0x08 0x7FF) 0x61 = true ∧
    (∀ m < 32, ¬((sBusyTx.node 1).nalloc.getLsbD m = true ∧ (sBusyTx.node 1).ndir.getLsbD m = true ∧
      (sBusyTx.node 1).nbusy.getLsbD m = false)) ∧
    (((sNode .normal).node 1).nalloc.getLsbD 0 = true ∧ ((sNode .normal).node 1).ndir.getLsbD 0 = true ∧
      ((sNode .normal).node 1).nbusy.getLsbD 0 = false) := by decide +kernel

/-- Nothing pending; and object 1 pending with object 0 not. -/
theorem test_witness_NodeTryReceiveDrainsTheLowestPending :
    let pending (s : State) (m : Nat) : Prop :=
      (s.node 1).nalloc.getLsbD m = true ∧ (s.node 1).ndir.getLsbD m = false ∧ (s.node 1).nbusy.getLsbD m = true
    sPending.mbx.wf ∧ sPending.params.nMbx ≤ 32 ∧ (∀ m < 32, ¬pending (sNode .normal) m) ∧ pending sPending 1 ∧
    ∀ k < 1, ¬pending sPending k := by decide +kernel

/-- A node in `BusOff`; one recovering already; one that is not in `BusOff`. -/
theorem test_witness_NodeRecoverStartsTheCount :
    ((sNode .busOff).node 1).state = .busOff ∧ ((sNode .busOff).node 1).recovering = false ∧
    ((sRecov 0 0).node 1).recovering = true ∧ (s0.node 1).state ≠ .busOff := by decide +kernel

/-! ### Interrupt boundary and events -/

/-- The last kind and the one after it, the greatest priority and one above, and a node that keeps R50. -/
theorem test_witness_IrqCommandsEnableDisableAcknowledge :
    ends (put s0 .fg (.irqEnable 0) 2 255) 0 = true ∧ latches (put s0 .fg (.irqEnable 0) 2 256) 0x5041 = true ∧
    ends (put s0 .fg (.irqDisable 0) 2) 0 = true ∧ ends (put s0 .fg (.irqAck 0) 2) 0 = true ∧ (s0.node 0).LatchInv ∧
    shows (put s0 .fg (.irqEnable 0) 1 5) (fun t => (t.node 0).nieWord = 0x00050002 && t.irqPriority 0 .rxp = 5) = true := by
  decide +kernel

/-- The lock bit not yet set; and a recovering node one occurrence short, then at the bound. -/
theorem test_witness_LockSetAndIdleSeqCountOnly :
    sSettling.pllstat.state = .prescaleSettling ∧ sSettling.pllstat.lockBit = false ∧
    (1 : NodeId).val < (sRecov 9 127).params.nNode ∧ ((sRecov 9 127).node 1).state = .busOff ∧
    ((sRecov 9 127).node 1).recovering = true ∧
    shows (State1 (sRecov 9 127) (.idleSeq 1)) (fun t => (t.node 1).recCnt = 128) = true ∧
    shows (State1 (sRecov 9 128) (.idleSeq 1)) (fun t => (t.node 1).recCnt = 128) = true := by decide +kernel

/-- A `LOCK` wait in each PLL state; while settling, with the lock bit, at the bound, and below it. -/
theorem test_witness_LockPollDecidesInOrder :
    (sWaiting.bank .fg).busy = true ∧ (sWaiting.bank .fg).waitKind = .lock ∧
    [PllState.disabled, .freeRunning, .prescaleSettling, .locked, .failed].all (fun x => [false, true].all fun l =>
      ([1, 2] : List Word).all fun c =>
        let s := State1 ((sWaiting.setPll ⟨x, l, true⟩).setBank .fg { sWaiting.bank0 with waitCnt := c }) (.waitStep .fg)
        s.schedule = [.waitStep .fg] && (s.bank .fg).busy && (s.bank .fg).waitKind = .lock &&
        shows s (fun t => t.bank0.busy = (x = .prescaleSettling && l = false && c = 1 : Bool))) = true := by
  decide +kernel

/-- A `RECOV` wait in each arm: the node gone from `BusOff`, the count reached, the bound reached one short, below both. -/
theorem test_witness_RecoveryPollDecidesInOrder :
    ([0, 1] : List Word).all (fun l => ([127, 128] : List (BitVec 8)).all fun c =>
      let s := State1 (sRecov l c) (.waitStep .fg)
      (s.bank .fg).busy && (s.bank .fg).waitKind = .recov && decide s.mbx.wf && s.params.nMbx ≤ 32 &&
      (s.node (s.bank .fg).waitNode).state = .busOff) = true ∧
    (((sRecov 1 0).setNState 1 .init).node 1).state ≠ .busOff ∧
    shows (State1 (sRecov 1 127) (.waitStep .fg)) (fun t => t.bank0.waitCnt = 1) = true ∧
    shows (State1 ((sRecov 1 0).setNState 1 .init) (.waitStep .fg)) (fun t => t.bank0.stat = 0x52) = true := by
  decide +kernel

theorem test_witness_TxDoneFreesTheObject :
    let s := State1 sBusyTx (.txDone 1 0)
    s.schedule = [.txDone 1 0] ∧ s.mbx.wf ∧ s.params.nMbx ≤ 32 ∧ (1 : NodeId).val < s.params.nNode ∧ 0 < s.params.nMbx ∧
    (s.node 1).state = .normal ∧ (s.node 1).nalloc.getLsbD 0 = true ∧ (s.node 1).ndir.getLsbD 0 = true ∧
    (s.node 1).nbusy.getLsbD 0 = true := by decide +kernel

/-- A frame of the greatest length and identifier of its tag, and one that object 1 accepts, in every state; the object
empty, pending, and not accepting. -/
theorem test_witness_RxFrameStoresWakesOrDrops :
    let long : CanFrame := ⟨false, false, 8, 0x7FF, 0, 0⟩
    let f : CanFrame := ⟨false, false, 3, 0x125, 0x44332211, 0x55⟩
    (long.dlc.toNat ≤ tp.dlcMax ∧ long.id.toNat < 2 ^ 11 ∧ f.dlc.toNat ≤ tp.dlcMax ∧ f.id.toNat < 2 ^ 11) ∧
    (∀ x ∈ [NodeState.init, .busOff, .sleep, .normal],
      let s := State1 (sNode x) (.rxFrame 1 f)
      s.schedule = [.rxFrame 1 f] ∧ s.mbx.wf ∧ s.params.nMbx ≤ 32 ∧ (1 : NodeId).val < s.params.nNode ∧
      (s.node 1).state = x) ∧
    ((sNode .normal).rxTarget 1 false 0x125 = some 1 ∧ (sNode .normal).rxMatch 1 false 0x7FF = false) ∧
    (sPending.rxTarget 1 false 0x125 = none ∧ sPending.rxMatch 1 false 0x125 = true) ∧
    shows (State1 sPending (.rxFrame 1 f)) (fun t => (t.node 1).rxLost) = true := by decide +kernel

/-- The threshold, one above it, and `TEC_MAX`. -/
theorem test_witness_BusErrorReportsTheCounter :
    let s := State1 (sNode .normal) (.busError 1 511)
    s.schedule = [.busError 1 511] ∧ (1 : NodeId).val < s.params.nNode ∧ 511 ≤ s.params.tecMax ∧
    (s.node 1).state = .normal ∧ ¬(s.params.busoffTec < 255) ∧ s.params.busoffTec < 256 := by decide +kernel

/-- Reset comes while a bank waits. -/
theorem test_witness_ResetLeavesEveryRegisterZero :
    (State1 sWaiting .reset).schedule = [.reset] ∧ (State1 sWaiting .reset).bank0.busy = true := by decide +kernel

/-- Each event where its condition does not hold, its parameters at the last value in range. -/
theorem test_witness_EventsNotEnabledAreRefused :
    ¬(sLocked.pllstat.state = .prescaleSettling ∧ sLocked.pllstat.lockBit = false) ∧ (s0.bank .irq).busy = false ∧
    (3 : NodeId).val < s0.params.nNode ∧ 31 < s0.params.nMbx ∧ 511 ≤ s0.params.tecMax ∧ (s0.node 3).state ≠ .normal ∧
    ¬((s0.node 3).state = .busOff ∧ (s0.node 3).recovering = true) ∧
    (step (State1 s0 (.txDone 3 31)) matches .refused (.eventNotEnabled _)) ∧
    (step (State1 s0 (.idleSeq 3)) matches .refused (.eventNotEnabled _)) := by decide +kernel

/-- The first node, object and counter value out of range, and the first `DLC` and identifiers that make a frame
ill-formed. -/
theorem test_witness_EventsNotEnabledAreRefused_range :
    s0.params.nNode = 4 ∧ s0.params.nMbx = 32 ∧ s0.params.tecMax = 511 ∧ s0.params.dlcMax = 8 ∧
    (∀ a ∈ [Input.txDone 4 0, .txDone 3 32, .rxFrame 4 ⟨false, false, 0, 0, 0, 0⟩, .busError 4 0, .busError 3 512,
      .idleSeq 4], step (State1 s0 a) matches .refused (.eventParameter _)) ∧
    (∀ f ∈ [(⟨false, false, 9, 0, 0, 0⟩ : CanFrame), ⟨false, false, 8, 0x800, 0, 0⟩, ⟨true, false, 8, 0x20000000, 0, 0⟩],
      step (State1 s0 (.rxFrame 3 f)) matches .refused .illFormedFrame) ∧
    (∀ f ∈ [(⟨false, false, 8, 0x7FF, 0, 0⟩ : CanFrame), ⟨true, false, 8, 0x1FFFFFFF, 0, 0⟩],
      shows (State1 s0 (.rxFrame 3 f)) (fun _ => true) = true) := by decide +kernel

/-! ### Faults -/

/-- The premise is reset's, and a first illegal value for each clause is in the tests above. -/
theorem test_witness_MalformedOperandsAreExactlyTheListed :
    s0.faultReg = none ∧ latches (put s0 .fg .clkFreq 6) 0x1341 = true ∧ ends (put s0 .fg .clkFreq 5) 0 = true ∧
    latches (put s0 .fg (.nodeTransmit 0) 0x09 0x800) 0x4231 = true ∧
    latches (put s0 .fg (.mbxRead 0) 31) 0x3221 = true := by decide +kernel

/-- A latched fault, and steps that are not reset: a refused command, an operand write (R72), and an event that acts as before. -/
theorem test_witness_FaultLatchStaysUntilReset :
    let s := State1 sFault (.portWrite .fg 0 5)
    s.faultReg ≠ none ∧ s.FaultInv ∧ ¬s.inputIs .reset ∧ shows s (fun t => t.bank0.cmd = 5 && t.bank0.code = .faulted) =
      true ∧
    shows (State1 sFault (.portWrite .fg 2 5)) (fun t => t.bank0 = { sFault.bank0 with arg0 := 5 }) = true ∧
    shows (State1 { sFault with pllstat := sSettling.pllstat } .lockSet) (fun t => t.pllstat.lockBit) = true := by
  decide +kernel

/-! ### Rules over every step -/

/-- A step that stores a frame in a memory of canonical form. -/
theorem test_witness_MemoryFormKeptByEveryStep :
    (put (sNode .normal) .fg (.nodeTransmit 1) 0x38 0x1ABCDEF0).mbx.wf ∧
    shows (put (sNode .normal) .fg (.nodeTransmit 1) 0x38 0x1ABCDEF0) (fun t => decide t.mbx.wf) = true := by decide +kernel

/-- A recovering node, a busy Transmit object and a waiting bank: the invariants hold, and a step is enabled. -/
theorem test_witness_StateInvariantKeptByEveryStep :
    (State1 (sRecov 200 128) (.waitStep .fg)).Inv ∧
    shows (State1 (sRecov 200 128) (.waitStep .fg)) (fun t => (t.node 1).state = .init) = true := by
  constructor
  · constructor <;> decide +kernel
  · decide +kernel

theorem test_witness_ResetMeetsTheStateInvariant : tp.wf := by decide +kernel

theorem test_witness_ObjectWordsStayInRange :
    let s := put (sNode .normal) .fg (.nodeTransmit 1) 0x38 0x1ABCDEF0
    let a := put sInit .fg (.mbxAlloc 1) 2 0x7FF 0x7FF
    (s.params.wf ∧ s.mbx.wf ∧ s.ObjectInv ∧ shows s (fun t => t.mbxRead 1 0 1 = 0x1ABCDEF0) = true) ∧
    (a.params.wf ∧ a.mbx.wf ∧ a.ObjectInv ∧ shows a (fun t => t.mbxRead 1 2 2 = 0x7FF && !moFide (t.moctrl 1 2)) = true) := by
  constructor <;> decide +kernel

/-- A step that changes protected registers; and steps under a held guard, the owner's release among them. -/
theorem test_witness_ProtectedRegistersChangeOnlyUnderTheGuard :
    shows (put s0 .fg .clkConfigure 20000000 0x000A1401) (fun t => decide ¬s0.sameProtected t) = true ∧
    (held s0).prot.held = true ∧ shows (put (held s0) .fg .guardRel) (fun t => t.prot.held = false) = true ∧
    (put (held s0) .irq .guardAcq).nextInstr = some (.irq, .guardAcq) ∧
    shows (put (held s0) .irq .guardAcq) (fun t => t.prot = (held s0).prot) = true := by decide +kernel

/-- A step along each row of R150: T31, T42, T43, T55, reset. -/
theorem test_witness_PllStateFollowsItsTable :
    shows (put s0 .fg .clkConfigure 20000000 0x000A1401) (fun t => t.pllstat.state = .prescaleSettling) = true ∧
    shows (State1 (sWaiting.setPll ⟨.prescaleSettling, true, true⟩) (.waitStep .fg)) (fun t => t.pllstat.state = .locked) =
      true ∧
    shows (State1 (sWaiting.setBank .fg { sWaiting.bank0 with waitCnt := 2 }) (.waitStep .fg)) (fun t =>
      t.pllstat.state = .failed) = true ∧
    shows (put sFailed .fg .clkReinit) (fun t => t.pllstat.state = .disabled) = true ∧
    shows (State1 sLocked .reset) (fun t => t.pllstat.state = .disabled) = true := by decide +kernel

/-- A step along each row of R219. -/
theorem test_witness_NodeStateFollowsItsTable :
    shows (put sInit .fg (.nodeStart 1)) (fun t => (t.node 1).state = .normal) = true ∧
    shows (put (sNode .normal) .fg (.nodeSleep 1)) (fun t => (t.node 1).state = .sleep) = true ∧
    shows (put (sNode .sleep) .fg (.nodeWake 1)) (fun t => (t.node 1).state = .normal) = true ∧
    shows (State1 (sNode .sleep) (.rxFrame 1 ⟨false, false, 0, 0, 0, 0⟩)) (fun t => (t.node 1).state = .normal) = true ∧
    shows (State1 (sNode .normal) (.busError 1 256)) (fun t => (t.node 1).state = .busOff) = true ∧
    shows (State1 (sRecov 0 128) (.waitStep .fg)) (fun t => (t.node 1).state = .init) = true ∧
    shows (State1 (sNode .sleep) .reset) (fun t => (t.node 1).state = .init) = true := by decide +kernel

/-- A pool of one object: one allocation fills it, and the next one is turned away (R196 (a), (b)). -/
theorem test_witness_PoolFillsInOrderAndKeepsDirection_fill :
    let s := put (State.resetWith { tp with nMbx := 1 }) .fg (.mbxAlloc 0)
    s.params.nMbx ≤ 32 ∧ (s.node 0).nalloc = 0 ∧ (State1 s .reset).releasesNext 0 ∧
    ∃ t, s.AllocRun 0 s.params.nMbx t ∧ (t.node 0).state = .init ∧
      (match exec (.mbxAlloc 0) t with
        | .next u => decide (u.cur.code = .poolExhausted)
        | _ => false) = true := by
  intro s
  obtain ⟨t, ht, hp⟩ := next_of_shows (s := s) (p := fun t => t.bank0.code = .ok && ((t.node 0).state = .init &&
    (match exec (.mbxAlloc 0) t with
      | .next u => decide (u.cur.code = .poolExhausted)
      | _ => false))) (by decide +kernel)
  simp only [Bool.and_eq_true, decide_eq_true_eq] at hp
  exact ⟨by decide +kernel, by decide +kernel, .inl rfl, t,
    .alloc .start ht ⟨.fg, t, by decide +kernel, ht, hp.1⟩, hp.2.1, hp.2.2⟩

/-- The three commands that change `NDIR`, and reset. -/
theorem test_witness_PoolFillsInOrderAndKeepsDirection :
    (sInit.node 1).ndir = 1 ∧ shows (put sInit .fg (.mbxAlloc 1) 1) (fun t => (t.node 1).ndir = 5) = true ∧
    shows (put sInit .fg (.mbxReleaseAll 1)) (fun t => (t.node 1).ndir = 0) = true ∧
    shows (put sInit .fg (.nodeConfigure 1) 500000 800 10) (fun t => (t.node 1).ndir = 0) = true ∧
    shows (State1 sInit .reset) (fun t => (t.node 1).ndir = 0) = true := by decide +kernel

/-- A step that sets a flag and one that clears it, from states that keep R54. -/
theorem test_witness_FlagsChangeOnlyByTheirTable :
    (put (sNode .normal) .fg (.nodeTransmit 1)).PoolInv ∧
    shows (put (sNode .normal) .fg (.nodeTransmit 1)) (fun t => (t.node 1).nbusy = 1) = true ∧
    (State1 sBusyTx (.txDone 1 0)).PoolInv ∧ shows (State1 sBusyTx (.txDone 1 0)) (fun t => (t.node 1).nbusy = 0) = true ∧
    (State1 sPending (.rxFrame 1 ⟨false, false, 3, 0x125, 0, 0⟩)).PoolInv ∧
    shows (State1 sPending (.rxFrame 1 ⟨false, false, 3, 0x125, 0, 0⟩)) (fun t => (t.node 1).rxLost) = true ∧
    (State1 (sRecov 200 128) (.waitStep .fg)).PoolInv ∧
    shows (State1 (sRecov 200 128) (.waitStep .fg)) (fun t => !(t.node 1).recovering && (t.node 1).nbusy = 0) = true := by
  and_intros <;> decide +kernel

/-- A command for each of the block's flags with a column of its own, both ways where R55 names both. -/
theorem test_witness_FlagsChangeOnlyByTheirTable_commands :
    s0.PoolInv ∧ shows (put s0 .fg .guardAcq) (fun t => t.prot.unlocked) = true ∧
    shows (put (held s0) .fg .guardRel) (fun t => !t.prot.unlocked) = true ∧
    shows (put (s0.setProt ⟨true, false, .fg⟩) .fg .clkConfigure 20000000 0x000A1401) (fun t => !t.prot.unlocked) = true ∧
    shows (put sLocked .fg .clkDomainEnable 2) (fun t => t.clken.get .can) = true ∧
    shows (State1 sInit .reset) (fun t => !t.clken.get .can) = true ∧
    shows (put s0 .fg (.irqEnable 1) 1 5) (fun t => (t.node 1).nie.get .rxp) = true ∧
    shows (put (s0.setNode 1 { NodeRegs.reset with nie := ⟨false, true, false⟩ }) .fg (.irqDisable 1) 1)
      (fun t => !(t.node 1).nie.get .rxp) = true ∧
    shows (put s0 .irq (.mbxRead 1) 0) (fun t => t.faultReg = some ⟨.assertMbxId, 0x32, 1, .irq⟩) = true := by
  and_intros <;> decide +kernel

/-- Commands that end with `EMPTY` and with an error. -/
theorem test_witness_ErrorCodesLeaveTheStateAlone :
    (match exec (.nodeTryReceive 3) s0 with
      | .next t => decide (t.cur.code = .empty)
      | _ => false) = true ∧
    (match exec .guardRel s0 with
      | .next t => decide (t.cur.code = .guardNotHeld)
      | _ => false) = true := by decide +kernel

/-- Each pure read from a state in which it does not fault, and a port read. -/
theorem test_witness_PureReadsChangeOnlyTheirResults :
    (∀ i ∈ [Instr.clkFreq, .nodeBusState 1, .regRead, .mbxRead 1, .clkSelect, .nop],
      (match exec i sInit with
        | .next t => decide (t.cur.code ≠ .faulted)
        | _ => false) = true) ∧
    (match exec .btCompute (args sInit 40000000 500000 800 10) with
      | .next t => decide (t.cur.code = .ok)
      | _ => false) = true ∧
    shows (State1 sInit (.portRead .fg 8)) (fun t => t.readData = 0) = true := by decide +kernel

/-- A command of node 1 and a block-wide command, neither of which faults. -/
theorem test_witness_NodeCommandsTouchOnlyTheirNode :
    sInit.params.nMbx ≤ 32 ∧
    (∀ i ∈ [Instr.mbxReleaseAll 1, .guardAcq],
      (match exec i sInit with
        | .next t => decide (t.cur.code = .ok)
        | _ => false) = true) ∧ (Instr.mbxReleaseAll 1).node ≠ some 0 ∧ (Instr.mbxReleaseAll 1).node ≠ none ∧
    Instr.guardAcq.node ≠ some 0 := by decide +kernel

/-- A command that completes, one that waits and one that ends with an error. -/
theorem test_witness_BanksAreSeparate :
    (match exec .regRead sInit with
      | .next t => decide (t.cur.code = .ok)
      | _ => false) = true ∧
    (match exec .clkWaitLock sInit with
      | .next t => decide (t.cur.code = .pending)
      | _ => false) = true ∧
    (match exec .guardRel sInit with
      | .next t => decide (t.cur.code = .guardNotHeld)
      | _ => false) = true := by decide +kernel

/-! ### Runs -/

/-- The state a run ends in, for the witnesses below. -/
def runs (s : State) (k : Nat) (p : State → Bool) : Bool :=
  match Host.Core.run core k s with
  | .next t => p t
  | _ => false

/-- A wait at its bound: two polls that leave the bank busy, with a lock-free step of the other bank between them. -/
theorem test_witness_WaitsEndWithinTheirBound :
    let s := sWaiting.moved [.waitStep .fg, .portWrite .irq 2 5, .waitStep .fg, .waitStep .fg]
    (s.bank .fg).busy = true ∧ (s.bank .fg).waitCnt ≤ (s.bank .fg).waitLim ∧
    (∀ j < 4, runs s j (fun u => (u.bank .fg).busy) = true) ∧ runs s 4 (fun u => !(u.bank .fg).busy) = true := by
  decide +kernel

/-- `CLK_CONFIGURE` with a schedule of three polls for the bound 2, the lock bit coming before the last, or never. -/
theorem test_witness_PllConfigurationEndsLockedOrFailed :
    let w := Input.waitStep .fg
    let s (sched : List Input) := (args s0 20000000 0x000A1401 0 0 40000000).moved sched
    (∀ sched ∈ [[w, w, .lockSet, w], [w, w, w]],
      (match exec .clkConfigure (s sched) with
        | .next t => decide (t.cur.busy = true ∧ t.schedule = sched)
        | _ => false) = true ∧ (s sched).cur.busy = false ∧ (∀ a ∈ sched, a = .lockSet ∨ a = .waitStep (s sched).issuer) ∧
      sched.count .lockSet ≤ 1 ∧ (s sched).params.pllLockMax.toNat < sched.count (.waitStep (s sched).issuer)) := by
  decide +kernel

/-- A recovery that completes and a restart, from `BusOff` to `Normal` in two steps. -/
theorem test_witness_BusOffNodeSendsNothingBeforeRestart :
    let s := (sRecov 0 128).moved [.waitStep .fg, .portWrite .irq 0 0x141]
    (s.node 1).state = .busOff ∧ Input.reset ∉ s.schedule.take 2 ∧ runs s 2 (fun t => (t.node 1).state = .normal) = true ∧
    (match exec (.nodeTransmit 1) s with
      | .next t => decide (t.cur.code = .txNotNormal)
      | _ => false) = true := by decide +kernel

/-! ## The words of R364 and R278 -/

/-- R364: a `TX_DONE`, a port read and an operand write left leave a run over; a command left does not, on either path. -/
theorem test_runOver :
    (s0.moved [.txDone 0 0, .portRead .fg 1, .portWrite .irq 2 5]).runOver ∧ sBusyTx.runOver ∧
    ¬(s0.moved [.lockSet, .portWrite .irq 0 0]).runOver ∧ ¬(State1 s0 (.busWrite 0x2000 .word 0)).runOver ∧
    ¬sWaiting.runOver ∧ ¬sFault.runOver ∧ ¬(held s0).runOver := by decide +kernel

/-- The states of a run whose schedule one step uses up. -/
theorem run_of_last {s u t : State} {k : Nat} (hu : step s = .next u) (he : u.schedule = [])
    (h : Host.Core.run core k s = .next t) : t = s ∨ t = u := by
  cases k with
  | zero => exact .inl (by injection h with h; exact h.symm)
  | succ k =>
    rw [core_run_succ k hu, core_run_nil k he] at h
    exact .inr (by injection h with h; exact h.symm)

/-- R278 (b): of a node that leaves `Normal` `TX_FAIR` asks nothing; of one that stays there it asks the `TX_DONE` of its
busy Transmit object. -/
theorem test_txFair : (State1 sBusyTx (.busError 1 256)).txFair 1 ∧ ¬(State1 sBusyTx (.portRead .fg 1)).txFair 1 := by
  constructor
  · obtain ⟨u, hu, hp⟩ := next_of_shows (s := State1 sBusyTx (.busError 1 256))
      (p := fun t => t.schedule.isEmpty && (t.node 1).state = .busOff) (by decide +kernel)
    simp only [Bool.and_eq_true, List.isEmpty_iff, decide_eq_true_eq] at hp
    intro k t ht hn m _ hm
    obtain rfl | rfl := run_of_last hu hp.1 ht
    · exact absurd (hn 1 u (core_run_succ 0 hu)) (by simp [hp.2])
    · simp [State.txDoneEnabled, hp.2] at hm
  · obtain ⟨u, hu, hp⟩ := next_of_shows (s := State1 sBusyTx (.portRead .fg 1))
      (p := fun t => t.schedule.isEmpty && (t.node 1).state = .normal) (by decide +kernel)
    simp only [Bool.and_eq_true, List.isEmpty_iff, decide_eq_true_eq] at hp
    intro h
    have stays : (State1 sBusyTx (.portRead .fg 1)).staysNormal 1 := fun k t ht => by
      obtain rfl | rfl := run_of_last hu hp.1 ht
      · decide +kernel
      · exact hp.2
    exact absurd (h 0 _ rfl stays 0 (by decide +kernel) (by decide +kernel)) (by decide +kernel)

/-- R278 (d): one `WAIT_STEP` is fair to a wait whose bound is spent, since it ends it, and not to a wait that goes on. -/
theorem test_stepFair :
    (State1 (sWaiting.setBank .fg { sWaiting.bank0 with waitCnt := 2 }) (.waitStep .fg)).stepFair .fg ∧
    ¬(State1 sWaiting (.waitStep .fg)).stepFair .fg := by
  constructor
  · obtain ⟨u, hu, hp⟩ := next_of_shows
      (s := State1 (sWaiting.setBank .fg { sWaiting.bank0 with waitCnt := 2 }) (.waitStep .fg))
      (p := fun t => t.schedule.isEmpty && !(t.bank .fg).busy) (by decide +kernel)
    simp only [Bool.and_eq_true, List.isEmpty_iff, Bool.not_eq_true'] at hp
    intro k t ht hb
    obtain rfl | rfl := run_of_last hu hp.1 ht
    · decide +kernel
    · cases hp.2.symm.trans hb
  · obtain ⟨u, hu, hp⟩ := next_of_shows (s := State1 sWaiting (.waitStep .fg))
      (p := fun t => t.schedule.isEmpty && (t.bank .fg).busy) (by decide +kernel)
    simp only [Bool.and_eq_true, List.isEmpty_iff] at hp
    intro h
    simpa [hp.1] using h 1 u (core_run_succ 0 hu) hp.2

end Sys2Proof.Tests
end

section
/-! PROOFS. How a command ends (00_scope.md R17): every command answers a next state, and the bank that issued it shows the
outcome there. -/

namespace Sys2Proof.Machine

/-- An error code is a code of a completed command. -/
theorem ResultCode.completed_of_isError {c : ResultCode} (hc : c.isError = true) : c ≠ .pending ∧ c ≠ .faulted := by
  constructor <;> rintro rfl <;> simp [ResultCode.isError] at hc

@[simp] theorem Bank.setBtResult_busy (bk : Bank) (r : BtResult) : (bk.setBtResult r).busy = bk.busy := rfl

/-- After the fault entry the issuing bank is free and shows `FAULTED` (R304). -/
theorem State.faulted_cur (s : State) (cause : FaultCause) :
    (s.faulted cause).cur.busy = false ∧ (s.faulted cause).cur.code = .faulted := by
  simp [State.faulted]

/-- No command is refused, and none stops the machine. -/
theorem exec_next (i : Instr) (s : State) : ∃ t, exec i s = .next t := by
  generalize hr : exec i s = r
  cases hr ▸ exec_answers i s with
  | faults c => exact ⟨_, rfl⟩
  | errs c hc => exact ⟨_, rfl⟩
  | succeeds t h => exact ⟨t, rfl⟩

theorem State.Succeeds.issuer_eq {s t : State} {i : Instr} (h : s.Succeeds i t) : t.issuer = s.issuer := by
  cases h <;> simp

theorem State.Succeeds.faultReg_eq {s t : State} {i : Instr} (h : s.Succeeds i t) : t.faultReg = s.faultReg := by
  cases h <;> simp

/-- A command that succeeds starts a wait, as `CLK_CONFIGURE`, `CLK_WAIT_LOCK` and `NODE_RECOVER` do, or ends with `OK`. -/
theorem State.Succeeds.ok_or_waiting {s t : State} {i : Instr} (h : s.Succeeds i t) :
    (t.cur.busy = s.cur.busy ∧ t.cur.code = .ok) ∨
      (t.cur.busy = true ∧ t.cur.code = .pending ∧ t.cur.waitKind ≠ .none) := by
  cases h
  case clkConfigure | clkWaitLock | nodeRecover => exact .inr (by simp)
  all_goals exact .inl (by simp)

/-- Settles O7: every answer of a command is a fault entry (*Faulted*), an error return (*Completed*) or a success, and a
success has started a wait (*Waiting*) or ended with `OK` (*Completed*). -/
theorem everyCommandHasOneOutcome : Obligations.EveryCommandHasOneOutcome := by
  intro i s hfree hlatch
  obtain ⟨t, ht⟩ := exec_next i s
  refine ⟨t, ht, ?_⟩
  rcases exec_cases ht with ⟨cause, rfl⟩ | ⟨c, hc, rfl⟩ | hs
  · exact ⟨by simp, .inr (.inr ⟨by simp, s.faulted_cur cause⟩)⟩
  · exact ⟨by simp, .inl ⟨by simpa, by simpa, by simpa using ResultCode.completed_of_isError hc⟩⟩
  · have hnone : t.faultReg = none := hs.faultReg_eq.trans hlatch
    refine ⟨hs.issuer_eq, ?_⟩
    obtain ⟨hbusy, hok⟩ | ⟨hbusy, hpending, hkind⟩ := hs.ok_or_waiting
    · exact .inl ⟨hnone, hbusy.trans hfree, by simp [hok]⟩
    · exact .inr (.inl ⟨hnone, hbusy, hpending, hkind⟩)

end Sys2Proof.Machine
end

section
/-! PROOFS. The mailbox memory keeps its canonical form (20_memory.md R70, log 9). -/

namespace Sys2Proof.Machine

/-- A step that does not write the mailbox keeps its form. -/
theorem State.mbx_wf_of_eq {s t : State} (h : t.mbx = s.mbx) (hs : s.mbx.wf) : t.mbx.wf := h ▸ hs

/-- Only an allocation, a release, a configuration, a transmission and a reception write the mailbox. -/
theorem State.Succeeds.mbx_wf {s t : State} {i : Instr} (h : s.Succeeds i t) (hs : s.mbx.wf) : t.mbx.wf := by
  cases h with
  | mbxAlloc n m =>
    refine State.mbx_wf_of_eq ((State.setCur_mbx _ _).trans (State.setBitmaps_mbx _ _ _ _ _ _)) ?_
    iterate 6 apply State.mbxWrite_wf
    exact hs
  | mbxReleaseAll n => exact State.mbx_wf_of_eq (by simp) (s.releaseAll_wf n hs)
  | nodeConfigure n => exact State.mbx_wf_of_eq (by simp) (s.releaseAll_wf n hs)
  | nodeTransmit n m => exact State.mbx_wf_of_eq (State.setCur_mbx _ _) (s.storeFrame_wf n m _ _ _ _ _ _ hs)
  | nodeTryReceive n m => exact State.mbx_wf_of_eq (by simp) (s.setMoBusy_wf n m false hs)
  | _ => exact State.mbx_wf_of_eq (by simp) hs

/-- Only a completed recovery, a finished transmission and a stored frame write the mailbox; reset empties it. -/
theorem State.EventTo.mbx_wf {s t : State} {a : Input} (h : s.EventTo a t) (hs : s.mbx.wf) : t.mbx.wf := by
  cases h with
  | recovered b =>
    exact State.mbx_wf_of_eq (State.setBank_mbx _ _ _) (State.idleTransmits_wf _ _ (State.mbx_wf_of_eq (by simp) hs))
  | txDone n m => exact State.mbx_wf_of_eq (by simp) (s.setMoBusy_wf n m false hs)
  | rxStored n f _ _ _ m => exact State.mbx_wf_of_eq (State.setNode_mbx _ _ _) (s.storeFrame_wf n m _ _ _ _ _ _ hs)
  | reset => exact s.resetBlock_mbx_wf
  | _ => exact State.mbx_wf_of_eq (by simp) hs

theorem State.StepTo.mbx_wf {s t : State} (h : s.StepTo t) (hs : s.mbx.wf) : t.mbx.wf := by
  cases h with
  | command a rest _ _ b w _ _ _ i _ _ t ht =>
    have hi : (s.issued b w rest).mbx.wf := State.mbx_wf_of_eq (by simp) hs
    rcases exec_cases ht with ⟨c, rfl⟩ | ⟨c, -, rfl⟩ | hq
    · exact State.mbx_wf_of_eq (by simp) hi
    · exact State.mbx_wf_of_eq (by simp) hi
    · exact hq.mbx_wf hi
  | event a rest _ _ t ht => exact ht.mbx_wf (State.mbx_wf_of_eq (by simp) hs)
  | _ => exact State.mbx_wf_of_eq (by simp) hs

/-- Settles O45: a case analysis of the step; every write of the mailbox keeps its form. -/
theorem memoryFormKeptByEveryStep : Obligations.MemoryFormKeptByEveryStep :=
  fun _ _ hs ht => (step_to ht).mbx_wf hs

end Sys2Proof.Machine
end

section
/-! PROOFS. What a command leaves alone: the other nodes and their objects, the clock registers, the other bank
(10_state.md R21, R24, R25, R43). -/

namespace Sys2Proof.Machine

/-! ### The issuing bank -/

@[simp] theorem State.takeCommand_issuer (s : State) (b : BankId) (w : Word) : (s.takeCommand b w).issuer = b := rfl

@[simp] theorem State.cur_takeCommand (s : State) (b : BankId) (w : Word) :
    (s.takeCommand b w).cur = { s.bank b with cmd := w } := by simp [State.takeCommand]

@[simp] theorem State.bank_takeCommand_same (s : State) (b : BankId) (w : Word) :
    (s.takeCommand b w).bank b = { s.bank b with cmd := w } := by simp [State.takeCommand]

theorem State.bank_takeCommand_other (s : State) {b c : BankId} (h : c ≠ b) (w : Word) :
    (s.takeCommand b w).bank c = s.bank c := by simp [State.takeCommand, State.bank_setBank, h]

/-! ### The nodes a command does not name -/

/-- Objects of different nodes have different addresses. -/
theorem moAddr_ne_of_node {k n : NodeId} (h : k ≠ n) {m m' w w' : Nat} (hm : m < 32) (hm' : m' < 32) (hw : w < 8)
    (hw' : w' < 8) : moAddr k m w ≠ moAddr n m' w' :=
  fun e => h (moAddr_inj hm hm' hw hw' e).1

/-- The six words of an object written in order, as an allocation does (43_mailbox.md R191). -/
def State.writeObject (s : State) (n : NodeId) (m : Nat) (v0 v1 v2 v3 v4 v5 : Word) : State :=
  (((((s.mbxWrite n m 0 v0).mbxWrite n m 1 v1).mbxWrite n m 2 v2).mbxWrite n m 3 v3).mbxWrite n m 4 v4).mbxWrite n m 5 v5

@[simp] theorem State.node_writeObject (s : State) (n k : NodeId) (m : Nat) (v0 v1 v2 v3 v4 v5 : Word) :
    (s.writeObject n m v0 v1 v2 v3 v4 v5).node k = s.node k := by simp [State.writeObject]

@[simp] theorem State.writeObject_params (s : State) (n : NodeId) (m : Nat) (v0 v1 v2 v3 v4 v5 : Word) :
    (s.writeObject n m v0 v1 v2 v3 v4 v5).params = s.params := by simp [State.writeObject]

theorem State.read_writeObject_other (s : State) (n : NodeId) (m : Nat) (v0 v1 v2 v3 v4 v5 : Word) (a : Nat)
    (h : ∀ w < 6, a ≠ moAddr n m w) : (s.writeObject n m v0 v1 v2 v3 v4 v5).mbx.read a = s.mbx.read a := by
  unfold State.writeObject
  rw [State.read_mbxWrite_other _ _ _ _ _ _ (h 5 (by omega)), State.read_mbxWrite_other _ _ _ _ _ _ (h 4 (by omega)),
    State.read_mbxWrite_other _ _ _ _ _ _ (h 3 (by omega)), State.read_mbxWrite_other _ _ _ _ _ _ (h 2 (by omega)),
    State.read_mbxWrite_other _ _ _ _ _ _ (h 1 (by omega)), State.read_mbxWrite_other _ _ _ _ _ _ (h 0 (by omega))]

theorem State.mbxRead_writeObject {s : State} (hs : s.mbx.wf) {n k : NodeId} {m j w : Nat} (hm : m < 32) (hj : j < 32)
    (hw : w < 6) {v0 v1 v2 v3 v4 v5 : Word} :
    (s.writeObject n m v0 v1 v2 v3 v4 v5).mbxRead k j w =
      if k = n ∧ j = m then
        if w = 0 then v0 else if w = 1 then v1 else if w = 2 then v2 else if w = 3 then v3 else if w = 4 then v4 else v5
      else s.mbxRead k j w := by
  have h0 := s.mbxWrite_wf n m 0 v0 hs
  have h1 := State.mbxWrite_wf _ n m 1 v1 h0
  have h2 := State.mbxWrite_wf _ n m 2 v2 h1
  have h3 := State.mbxWrite_wf _ n m 3 v3 h2
  have h4 := State.mbxWrite_wf _ n m 4 v4 h3
  unfold State.writeObject
  rw [State.mbxRead_mbxWrite _ n k m j 5 w v5 h4 hm hj (by omega) (by omega),
    State.mbxRead_mbxWrite _ n k m j 4 w v4 h3 hm hj (by omega) (by omega),
    State.mbxRead_mbxWrite _ n k m j 3 w v3 h2 hm hj (by omega) (by omega),
    State.mbxRead_mbxWrite _ n k m j 2 w v2 h1 hm hj (by omega) (by omega),
    State.mbxRead_mbxWrite _ n k m j 1 w v1 h0 hm hj (by omega) (by omega),
    State.mbxRead_mbxWrite _ n k m j 0 w v0 hs hm hj (by omega) (by omega)]
  by_cases he : k = n ∧ j = m
  · simp only [he, true_and, if_true]
    interval_cases w <;> rfl
  · simp only [← and_assoc, he, false_and, if_false]

/-- A command that succeeds writes the registers of no node but the one it names. -/
theorem State.Succeeds.node_eq {s t : State} {i : Instr} (h : s.Succeeds i t) {k : NodeId} (hk : i.node ≠ some k) :
    t.node k = s.node k := by
  cases h
  all_goals
    simp only [Instr.node, ne_eq, Option.some.injEq, eq_comm (b := k)] at hk
    simp [State.node_setNode, State.node_storeFrame, State.node_setMoBusy, State.node_releaseAll, State.setBitmaps, hk]

/-- A command that succeeds writes the objects of no node but the one it names. -/
theorem State.Succeeds.mbxRead_eq {s t : State} {i : Instr} (h : s.Succeeds i t) (hp : s.params.nMbx ≤ 32) {k : NodeId}
    (hk : i.node ≠ some k) {m w : Nat} (hm : m < 32) (hw : w < 6) : t.mbxRead k m w = s.mbxRead k m w := by
  have ne : ∀ {n : NodeId}, some n ≠ some k → ∀ {m'}, m' < s.params.nMbx → ∀ w' < 6, moAddr k m w ≠ moAddr n m' w' :=
    fun hk _ hm' _ hw' => moAddr_ne_of_node (by simpa [eq_comm] using hk) hm (by omega) (by omega) (by omega)
  cases h with
  | mbxAlloc n m' _ hm' =>
    rw [State.mbxRead_setCur, State.mbxRead_setBitmaps]
    exact s.read_writeObject_other n m' _ _ _ _ _ _ _ (ne hk hm')
  | mbxReleaseAll n =>
    rw [State.coded_mbxRead]
    exact s.read_releaseAll_other n _ fun _ hm' => ne hk hm'
  | nodeConfigure n =>
    rw [State.mbxRead_setCur, State.mbxRead_setNode, State.mbxRead_setProt]
    exact s.read_releaseAll_other n _ fun _ hm' => ne hk hm'
  | nodeTransmit n m' _ hm' =>
    rw [State.mbxRead_setCur]
    exact s.read_storeFrame_other n m' _ _ _ _ _ _ _ (ne hk hm')
  | nodeTryReceive n m' hm' =>
    rw [State.mbxRead_setCur]
    exact s.read_setMoBusy_other n m' false _ (ne hk hm' 0 (by omega))
  | _ => simp

/-- A node command that succeeds writes no clock register. -/
theorem State.Succeeds.sameClock {s t : State} {i : Instr} (h : s.Succeeds i t) (hk : i.node ≠ none) :
    s.sameClock t := by
  cases h <;> simp [Instr.node, State.sameClock] at hk ⊢

/-- Settles O56: a success touches only the node it names, and an error return only `STAT.CODE`. -/
theorem nodeCommandsTouchOnlyTheirNode : Obligations.NodeCommandsTouchOnlyTheirNode := by
  intro i s t ht hcode hp
  rcases exec_cases ht with ⟨c, rfl⟩ | ⟨c, -, rfl⟩ | hs
  · exact absurd (s.faulted_cur c).2 hcode
  · simp [State.sameNode, State.sameClock]
  · exact ⟨fun k hk => ⟨hs.node_eq hk, fun m hm w hw => hs.mbxRead_eq hp hk hm hw⟩, hs.sameClock⟩

/-! ### The banks -/

/-- A command that succeeds leaves the other bank alone. -/
theorem State.Succeeds.bank_other {s t : State} {i : Instr} (h : s.Succeeds i t) {b : BankId} (hb : b ≠ s.issuer) :
    t.bank b = s.bank b := by
  cases h <;> simp [State.coded_bank, State.bank_setCur, hb]

/-- A command that succeeds keeps the command word and the operands of its own bank. -/
theorem State.Succeeds.cur_operands {s t : State} {i : Instr} (h : s.Succeeds i t) :
    t.cur.cmd = s.cur.cmd ∧ t.cur.arg0 = s.cur.arg0 ∧ t.cur.arg1 = s.cur.arg1 ∧ t.cur.arg2 = s.cur.arg2 ∧
      t.cur.arg3 = s.cur.arg3 ∧ t.cur.arg4 = s.cur.arg4 := by
  cases h <;> simp [Bank.setBtResult]

/-- A success that does not show `OK` has started a wait, which writes no result. -/
theorem State.Succeeds.cur_results {s t : State} {i : Instr} (h : s.Succeeds i t) (hc : t.cur.code ≠ .ok) :
    t.cur.res0 = s.cur.res0 ∧ t.cur.res1 = s.cur.res1 ∧ t.cur.res2 = s.cur.res2 ∧
      t.cur.res3 = s.cur.res3 ∧ t.cur.res4 = s.cur.res4 ∧ t.cur.res5 = s.cur.res5 := by
  cases h
  case clkConfigure | clkWaitLock | nodeRecover => simp
  all_goals exact absurd (by simp) hc

/-- Settles O57: a success keeps the other bank and its own operands, and an error return writes only `STAT.CODE`. -/
theorem banksAreSeparate : Obligations.BanksAreSeparate := by
  intro i s t ht hcode
  rcases exec_cases ht with ⟨c, rfl⟩ | ⟨c, -, rfl⟩ | hs
  · exact absurd (s.faulted_cur c).2 hcode
  · simp [State.coded_bank]
  · exact ⟨hs.issuer_eq, hs.bank_other (BankId.other_ne _), hs.cur_operands, hs.cur_results⟩

end Sys2Proof.Machine
end

section
/-! PROOFS. The layouts of the structured registers (10_state.md R23 to R50) as sums of their fields. -/

namespace Sys2Proof.Machine

/-- A field at bit `n` of a word whose lower bits hold another number: the sum of the two at their places. -/
theorem toNat_or_shiftLeft {a b : Word} {x y n : Nat} (ha : a.toNat = x) (hb : b.toNat = y) (hx : x < 2 ^ n)
    (hy : 2 ^ n * y < 2 ^ 32) : (a ||| b <<< n).toNat = x + 2 ^ n * y := by
  subst ha hb
  have hshift : b.toNat <<< n = 2 ^ n * b.toNat := by rw [Nat.shiftLeft_eq, Nat.mul_comm]
  rw [BitVec.toNat_or, BitVec.toNat_shiftLeft, Nat.mod_eq_of_lt (hshift ▸ hy), Nat.or_comm,
    ← Nat.shiftLeft_add_eq_or_of_lt hx, hshift, Nat.add_comm]

/-- A number that fits is the value of its bit vector. -/
theorem toNat_ofNat_of_lt {n x : Nat} (h : x < 2 ^ n) : (BitVec.ofNat n x).toNat = x :=
  (BitVec.toNat_ofNat x n).trans (Nat.mod_eq_of_lt h)

@[simp] theorem bitW_toNat (b : Bool) : (bitW b).toNat = b.toNat := by cases b <;> rfl

/-- A field no wider than a word keeps its number. -/
theorem fieldW_toNat {n : Nat} (v : BitVec n) (hn : n ≤ 32) : (fieldW v).toNat = v.toNat :=
  BitVec.toNat_setWidth_of_le hn

/-! ### The widths of the tagged fields -/

theorem WaitKind.num_lt (k : WaitKind) : k.num.toNat < 2 ^ 2 := by cases k <;> decide

theorem FaultCause.num_lt (c : FaultCause) : c.num.toNat < 2 ^ 4 := by cases c <;> decide

theorem PllState.num_lt (p : PllState) : p.num.toNat < 2 ^ 3 := by cases p <;> decide

theorem NodeState.num_lt (x : NodeState) : x.num.toNat < 2 ^ 2 := by cases x <;> decide

/-! ### The layouts -/

theorem Bank.stat_toNat (bk : Bank) : bk.stat.toNat = bk.code.num.toNat + 2 ^ 8 * bk.busy.toNat :=
  have hb := bk.busy.toNat_lt
  toNat_or_shiftLeft (fieldW_toNat _ (by omega)) (bitW_toNat _) bk.code.num.isLt (by omega)

theorem Bank.waitCtl_toNat (bk : Bank) :
    bk.waitCtl.toNat = bk.waitKind.num.toNat + 2 ^ 4 * bk.waitNode.val :=
  have hk := bk.waitKind.num_lt
  have hn := bk.waitNode.isLt
  toNat_or_shiftLeft rfl (toNat_ofNat_of_lt (by omega)) (by omega) (by omega)

/-- Three flags in the three lowest bits. -/
theorem toNat_threeFlags (a b c : Bool) :
    (bitW a ||| bitW b <<< 1 ||| bitW c <<< 2).toNat = a.toNat + 2 * b.toNat + 4 * c.toNat := by
  cases a <;> cases b <;> cases c <;> rfl

theorem PllCon.word_toNat (c : PllCon) : c.word.toNat = c.p.toNat + 2 ^ 8 * c.n.toNat + 2 ^ 16 * c.k.toNat :=
  have hp := c.p.isLt
  have hn := c.n.isLt
  have hk := c.k.isLt
  toNat_or_shiftLeft
    (toNat_or_shiftLeft (fieldW_toNat _ (by omega)) (fieldW_toNat _ (by omega)) hp (by omega))
    (fieldW_toNat _ (by omega)) (by omega) (by omega)

theorem PllStat.word_toNat (p : PllStat) :
    p.word.toNat = p.state.num.toNat + 2 ^ 8 * p.lockBit.toNat + 2 ^ 9 * p.oscRun.toNat :=
  have hs := p.state.num_lt
  have hl := p.lockBit.toNat_lt
  have ho := p.oscRun.toNat_lt
  toNat_or_shiftLeft (toNat_or_shiftLeft rfl (bitW_toNat _) (by omega) (by omega)) (bitW_toNat _) (by omega) (by omega)

theorem CcuCon.word_toNat (c : CcuCon) :
    c.word.toNat = c.dCore.toNat + 2 ^ 4 * c.dPeriph.toNat + 2 ^ 8 * c.dCan.toNat :=
  have h0 := c.dCore.isLt
  have h1 := c.dPeriph.isLt
  have h2 := c.dCan.isLt
  toNat_or_shiftLeft
    (toNat_or_shiftLeft (fieldW_toNat _ (by omega)) (fieldW_toNat _ (by omega)) h0 (by omega))
    (fieldW_toNat _ (by omega)) (by omega) (by omega)

theorem faultWord_toNat (r : FaultRecord) : (faultWord (some r)).toNat =
    1 + 2 ^ 4 * r.cause.num.toNat + 2 ^ 8 * r.opc.toNat + 2 ^ 16 * r.node.toNat + 2 ^ 24 * r.bank.bit.toNat :=
  have hc := r.cause.num_lt
  have ho := r.opc.isLt
  have hn := r.node.isLt
  have hb := r.bank.bit.toNat_lt
  toNat_or_shiftLeft
    (toNat_or_shiftLeft
      (toNat_or_shiftLeft (toNat_or_shiftLeft rfl rfl (by omega) (by omega)) (fieldW_toNat _ (by omega))
        (by omega) (by omega))
      (fieldW_toNat _ (by omega)) (by omega) (by omega))
    (bitW_toNat _) (by omega) (by omega)

theorem idWord_toNat (p : Params) (hn : p.nNode < 2 ^ 5) (hm : p.nMbx < 2 ^ 6) :
    (idWord p).toNat = p.nNode + 2 ^ 8 * p.nMbx :=
  toNat_or_shiftLeft (toNat_ofNat_of_lt (by omega)) (toNat_ofNat_of_lt (by omega)) (by omega) (by omega)

theorem NodeRegs.nstat_toNat (r : NodeRegs) : r.nstat.toNat =
    r.state.num.toNat + 2 ^ 4 * r.configured.toNat + 2 ^ 5 * r.rxLost.toNat + 2 ^ 6 * r.recovering.toNat :=
  have hs := r.state.num_lt
  have hc := r.configured.toNat_lt
  have hl := r.rxLost.toNat_lt
  have hr := r.recovering.toNat_lt
  toNat_or_shiftLeft
    (toNat_or_shiftLeft (toNat_or_shiftLeft rfl (bitW_toNat _) (by omega) (by omega)) (bitW_toNat _)
      (by omega) (by omega))
    (bitW_toNat _) (by omega) (by omega)

theorem Btr.word_toNat (t : Btr) : t.word.toNat =
    t.brp.toNat + 2 ^ 16 * t.tseg1.toNat + 2 ^ 24 * t.tseg2.toNat + 2 ^ 28 * t.sjw.toNat :=
  have hb := t.brp.isLt
  have h1 := t.tseg1.isLt
  have h2 := t.tseg2.isLt
  have hs := t.sjw.isLt
  toNat_or_shiftLeft
    (toNat_or_shiftLeft
      (toNat_or_shiftLeft (fieldW_toNat _ (by omega)) (fieldW_toNat _ (by omega)) (by omega) (by omega))
      (fieldW_toNat _ (by omega)) (by omega) (by omega))
    (fieldW_toNat _ (by omega)) (by omega) (by omega)

theorem NodeRegs.nieWord_toNat (r : NodeRegs) : r.nieWord.toNat =
    r.nie.txc.toNat + 2 * r.nie.rxp.toNat + 4 * r.nie.berr.toNat +
      2 ^ 8 * r.prio.txc.toNat + 2 ^ 16 * r.prio.rxp.toNat + 2 ^ 24 * r.prio.berr.toNat :=
  have ht := r.nie.txc.toNat_lt
  have hr := r.nie.rxp.toNat_lt
  have he := r.nie.berr.toNat_lt
  have h0 := r.prio.txc.isLt
  have h1 := r.prio.rxp.isLt
  have h2 := r.prio.berr.isLt
  toNat_or_shiftLeft
    (toNat_or_shiftLeft
      (toNat_or_shiftLeft (toNat_threeFlags _ _ _) (fieldW_toNat _ (by omega)) (by omega) (by omega))
      (fieldW_toNat _ (by omega)) (by omega) (by omega))
    (fieldW_toNat _ (by omega)) (by omega) (by omega)

/-- Settles O10: one layout lemma per register; the numbers of the tagged fields are the model's definitions. -/
theorem registerWordsPlaceTheirFields : Obligations.RegisterWordsPlaceTheirFields := by
  refine ⟨fun bk => ⟨bk.stat_toNat, bk.waitCtl_toNat⟩, fun p => toNat_threeFlags p.unlocked p.held p.owner.bit,
    PllCon.word_toNat, PllStat.word_toNat, CcuCon.word_toNat, fun c => toNat_threeFlags c.core c.periph c.can,
    faultWord_toNat, idWord_toNat,
    fun r => ⟨r.nstat_toNat, r.nbtr.word_toNat, r.nieWord_toNat, toNat_threeFlags r.nip.txc r.nip.rxp r.nip.berr⟩,
    ?_, ?_, ?_, ?_, ?_, ?_⟩
  all_goals decide

end Sys2Proof.Machine
end

section
/-! PROOFS. The words of the message objects: `MOCTRL` keeps its reserved bits 0 and the identifier words their widths
(10_state.md R52, R53; 30_encoding.md R113). -/

namespace Sys2Proof.Machine

/-! ### Bounds of the parameters (R9) -/

section
variable {p : Params} (h : p.wf)
include h

theorem nMbx_le_of_wf : p.nMbx ≤ 32 := by
  obtain ⟨-, ⟨-, hm⟩, -⟩ := h
  exact hm

theorem tecMax_le_of_wf : p.tecMax ≤ 511 := by
  obtain ⟨-, -, -, -, -, -, -, -, ⟨-, ht⟩, -⟩ := h
  exact ht

theorem recovSeq_le_of_wf : p.recovSeq ≤ 255 := by
  obtain ⟨-, -, -, -, -, -, -, -, -, hr, -⟩ := h
  exact hr

theorem dlcMax_le_of_wf : p.dlcMax ≤ 8 := by
  obtain ⟨-, -, -, -, -, -, -, -, -, -, -, -, -, -, -, hd⟩ := h
  exact hd

end

/-! ### The words of one object -/

/-- What `State.ObjectInvAt` asks of an object's first four words. -/
def ObjectWordsOk (ctrl id fa fb : Word) : Prop :=
  ctrl &&& 0xFFFFC0E0 = 0 ∧ id.toNat < 2 ^ 29 ∧ fa.toNat < 2 ^ 29 ∧ fb.toNat < 2 ^ 29 ∧
  (moIde ctrl = false → id.toNat < 2 ^ 11) ∧ (moFide ctrl = false → fa.toNat < 2 ^ 11 ∧ fb.toNat < 2 ^ 11)

theorem State.objectInvAt_iff (s : State) (n : NodeId) (m : Nat) :
    s.ObjectInvAt n m ↔ ObjectWordsOk (s.mbxRead n m 0) (s.mbxRead n m 1) (s.mbxRead n m 2) (s.mbxRead n m 3) := Iff.rfl

theorem ObjectWordsOk.zero : ObjectWordsOk 0 0 0 0 := by unfold ObjectWordsOk; decide

/-- An identifier its tag admits (R113). -/
theorem toNat_lt_of_not_idTooWide {ide : Bool} {w : Word} (h : idTooWide ide w = false) :
    w.toNat < 2 ^ 29 ∧ (ide = false → w.toNat < 2 ^ 11) := by
  cases ide <;> simp only [idTooWide, idMax, decide_eq_false_iff_not, if_true, Bool.false_eq_true, if_false] at h
  · exact ⟨by omega, fun _ => by omega⟩
  · exact ⟨by omega, fun e => by cases e⟩

/-- The reserved bits of a union are those of its parts. -/
theorem or_and_eq_zero {a b c : Word} (ha : a &&& c = 0) (hb : b &&& c = 0) : (a ||| b) &&& c = 0 := by
  rw [BitVec.and_comm, BitVec.and_or_distrib_left, BitVec.and_comm c a, BitVec.and_comm c b, ha, hb]; rfl

/-- A mask clears bits only. -/
theorem and_and_eq_zero {a b c : Word} (ha : a &&& c = 0) : a &&& b &&& c = 0 := by
  rw [BitVec.and_assoc, BitVec.and_comm b c, ← BitVec.and_assoc, ha]; exact BitVec.zero_and

/-- `MOCTRL.BUSY` is no reserved bit and no tag. -/
theorem ObjectWordsOk.setBusy {ctrl id fa fb : Word} (h : ObjectWordsOk ctrl id fa fb) (v : Bool) :
    ObjectWordsOk (moSetBusy ctrl v) id fa fb := by
  obtain ⟨hres, hrest⟩ := h
  obtain ⟨-, -, -, -, hfide, -, -, hide⟩ := moSetBusy_fields ctrl v
  rw [ObjectWordsOk, hide, hfide]
  refine ⟨?_, hrest⟩
  cases v
  · exact and_and_eq_zero hres
  · exact or_and_eq_zero hres (by decide)

/-- A stored frame brings an identifier of its own tag, and no reserved bit. -/
theorem ObjectWordsOk.setFrame {ctrl id fa fb : Word} (h : ObjectWordsOk ctrl id fa fb) (dlc : BitVec 4) (rtr : Bool)
    {ide : Bool} {id' : Word} (hid : idTooWide ide id' = false) :
    ObjectWordsOk (moSetFrame ctrl dlc rtr ide) id' fa fb := by
  obtain ⟨hres, -, hfa, hfb, -, hf⟩ := h
  obtain ⟨hid29, hid11⟩ := toNat_lt_of_not_idTooWide hid
  obtain ⟨-, -, -, hide, -, -, -, hfide⟩ := moSetFrame_fields ctrl dlc rtr ide
  rw [ObjectWordsOk, hide, hfide]
  have hdlc : ∀ d : BitVec 4, fieldW d <<< 8 &&& 0xFFFFC0E0 = 0 := by decide
  have hflag : ∀ b : Bool, bitW b <<< 12 &&& 0xFFFFC0E0 = 0 ∧ bitW b <<< 13 &&& 0xFFFFC0E0 = 0 := by decide
  have hkept : (ctrl &&& 0xFFFFC0EF) &&& 0xFFFFC0E0 = 0 := and_and_eq_zero hres
  exact ⟨or_and_eq_zero (or_and_eq_zero (or_and_eq_zero (or_and_eq_zero hkept (by decide)) (hdlc dlc)) (hflag rtr).1)
    (hflag ide).2, hid29, hfa, hfb, hid11, hf⟩

/-- A fresh object has no identifier, and filter words of its filter's tag (R191). -/
theorem ObjectWordsOk.fresh (dir fkind : Bool) {fide : Bool} {fa fb : Word} (ha : idTooWide fide fa = false)
    (hb : idTooWide fide fb = false) : ObjectWordsOk (moFresh dir fkind fide) 0 fa fb := by
  obtain ⟨ha29, ha11⟩ := toNat_lt_of_not_idTooWide ha
  obtain ⟨hb29, hb11⟩ := toNat_lt_of_not_idTooWide hb
  obtain ⟨-, -, -, hfide, -⟩ := moFresh_fields dir fkind fide
  rw [ObjectWordsOk, hfide]
  have hres : ∀ d k f : Bool, moFresh d k f &&& 0xFFFFC0E0 = 0 := by decide
  exact ⟨hres dir fkind fide, by decide, ha29, hb29, fun _ => by decide, fun e => ⟨ha11 e, hb11 e⟩⟩

/-! ### The words of an object after each operation on the pool -/

variable {s t : State}

/-- The six words of object `m` of node `n` read in `t` as in `s`. -/
abbrev State.sameWords (s t : State) (n : NodeId) (m : Nat) : Prop := ∀ w < 6, t.mbxRead n m w = s.mbxRead n m w

theorem State.sameWords_writeObject (hw : s.mbx.wf) {n k : NodeId} {m j : Nat} (hm : m < 32) (hj : j < 32)
    (hne : ¬(k = n ∧ j = m)) (v0 v1 v2 v3 v4 v5 : Word) : s.sameWords (s.writeObject n m v0 v1 v2 v3 v4 v5) k j := by
  intro w hw'
  rw [State.mbxRead_writeObject hw hm hj hw', if_neg hne]

theorem State.sameWords_setMoBusy (hw : s.mbx.wf) {n k : NodeId} {m j : Nat} (hm : m < 32) (hj : j < 32)
    (hne : ¬(k = n ∧ j = m)) (v : Bool) : s.sameWords (s.setMoBusy n m v) k j := by
  intro w hw'
  rw [State.mbxRead_setMoBusy s n k m j w v hw hm hj (by omega), if_neg fun h => hne ⟨h.1, h.2.1⟩]

theorem State.sameWords_storeFrame (hw : s.mbx.wf) {n k : NodeId} {m j : Nat} (hm : m < 32) (hj : j < 32)
    (hne : ¬(k = n ∧ j = m)) (dlc : BitVec 4) (rtr ide : Bool) (id dl dh : Word) :
    s.sameWords (s.storeFrame n m dlc rtr ide id dl dh) k j := by
  intro w hw'
  rw [State.mbxRead_storeFrame s n k m j w dlc rtr ide id dl dh hw hm hj (by omega), if_neg hne]

/-- A completed recovery clears `MOCTRL.BUSY` of the node's Transmit objects and writes no other word (R218). -/
theorem State.mbxRead_idleTransmits (hw : s.mbx.wf) (hp : s.params.nMbx ≤ 32) (n k : NodeId) {j w : Nat} (hj : j < 32)
    (hw' : w < 8) : (s.idleTransmits n).mbxRead k j w =
      if k = n ∧ j < s.params.nMbx ∧ w = 0 ∧ bitmapGet (s.node n).ndir j = true then moSetBusy (s.moctrl n j) false
      else s.mbxRead k j w := by
  obtain ⟨-, -, -, -, hloop⟩ := State.idleLoop_spec n (List.range s.params.nMbx) s hw
  have h := (hloop fun m hm => by have := List.mem_range.mp hm; omega).2 k j w hj hw'
  simp only [List.mem_range] at h
  exact h

/-! ### The invariant of the words -/

/-- No object's words change. -/
theorem State.ObjectInv.congr (h : s.ObjectInv) (he : t.mbx = s.mbx) : t.ObjectInv := by
  intro k j hj
  simpa only [State.ObjectInvAt, State.moctrl, State.mbxRead_congr k he] using h k j hj

/-- One object's words change. -/
theorem State.ObjectInv.update (h : s.ObjectInv) {n : NodeId} {m : Nat}
    (hsame : ∀ k : NodeId, ∀ j < 32, ¬(k = n ∧ j = m) → s.sameWords t k j) (hobj : t.ObjectInvAt n m) :
    t.ObjectInv := by
  intro k j hj
  by_cases he : k = n ∧ j = m
  · obtain ⟨rfl, rfl⟩ := he; exact hobj
  · have hr := hsame k j hj he
    rw [State.objectInvAt_iff, hr 0 (by omega), hr 1 (by omega), hr 2 (by omega), hr 3 (by omega)]
    exact h k j hj

theorem State.ObjectInv.writeObject (h : s.ObjectInv) (hw : s.mbx.wf) {n : NodeId} {m : Nat} (hm : m < 32)
    {v0 v1 v2 v3 : Word} (hok : ObjectWordsOk v0 v1 v2 v3) (v4 v5 : Word) :
    (s.writeObject n m v0 v1 v2 v3 v4 v5).ObjectInv :=
  h.update (fun _ _ hj hne => State.sameWords_writeObject hw hm hj hne _ _ _ _ _ _) <| by
    rw [State.objectInvAt_iff]
    simpa [State.mbxRead_writeObject hw hm hm] using hok

theorem State.ObjectInv.setMoBusy (h : s.ObjectInv) (hw : s.mbx.wf) {n : NodeId} {m : Nat} (hm : m < 32) (v : Bool) :
    (s.setMoBusy n m v).ObjectInv :=
  h.update (fun _ _ hj hne => State.sameWords_setMoBusy hw hm hj hne v) <| by
    rw [State.objectInvAt_iff]
    simpa [State.mbxRead_setMoBusy s n n m m _ v hw hm hm] using ObjectWordsOk.setBusy (h n m hm) v

theorem State.ObjectInv.storeFrame (h : s.ObjectInv) (hw : s.mbx.wf) {n : NodeId} {m : Nat} (hm : m < 32)
    (dlc : BitVec 4) (rtr : Bool) {ide : Bool} {id : Word} (hid : idTooWide ide id = false) (dl dh : Word) :
    (s.storeFrame n m dlc rtr ide id dl dh).ObjectInv :=
  h.update (fun _ _ hj hne => State.sameWords_storeFrame hw hm hj hne dlc rtr ide id dl dh) <| by
    rw [State.objectInvAt_iff]
    simpa [State.mbxRead_storeFrame s n n m m _ dlc rtr ide id dl dh hw hm hm] using
      ObjectWordsOk.setFrame (h n m hm) dlc rtr hid

theorem State.ObjectInv.releaseAll (h : s.ObjectInv) (hw : s.mbx.wf) (hp : s.params.nMbx ≤ 32) (n : NodeId) :
    (s.releaseAll n).ObjectInv := by
  intro k j hj
  have hr := fun w hw' => State.mbxRead_releaseAll s n k j w hw hp hj hw'
  rw [State.objectInvAt_iff, hr 0 (by omega), hr 1 (by omega), hr 2 (by omega), hr 3 (by omega)]
  by_cases he : k = n ∧ j < s.params.nMbx
  · simpa [he] using ObjectWordsOk.zero
  · have hn : ∀ w, ¬(k = n ∧ j < s.params.nMbx ∧ w < 6) := fun _ hc => he ⟨hc.1, hc.2.1⟩
    simp only [hn, if_false]
    exact h k j hj

theorem State.ObjectInv.idleTransmits (h : s.ObjectInv) (hw : s.mbx.wf) (hp : s.params.nMbx ≤ 32) (n : NodeId) :
    (s.idleTransmits n).ObjectInv := by
  intro k j hj
  simp only [State.objectInvAt_iff, State.mbxRead_idleTransmits hw hp n k hj, Nat.reduceLT, Nat.reduceEqDiff, false_and,
    and_false, if_false, true_and]
  split
  · next he => obtain ⟨rfl, -⟩ := he; exact ObjectWordsOk.setBusy (h k j hj) false
  · exact h k j hj

theorem State.Succeeds.objectInv {i : Instr} (h : s.Succeeds i t) (hp : s.params.nMbx ≤ 32) (hw : s.mbx.wf)
    (hs : s.ObjectInv) : t.ObjectInv := by
  cases h with
  | mbxAlloc n m _ hm _ _ h1 h2 =>
    refine State.ObjectInv.congr ?_ ((State.setCur_mbx _ _).trans (State.setBitmaps_mbx _ _ _ _ _ _))
    exact hs.writeObject hw (by omega) (ObjectWordsOk.fresh _ _ h1 h2) 0 0
  | mbxReleaseAll n => exact (hs.releaseAll hw hp n).congr (by simp)
  | nodeConfigure n => exact (hs.releaseAll hw hp n).congr (by simp)
  | nodeTransmit n m _ hm _ _ _ _ hid => exact (hs.storeFrame hw (by omega) _ _ hid _ _).congr (State.setCur_mbx _ _)
  | nodeTryReceive n m hm => exact (hs.setMoBusy hw (by omega) false).congr (State.setCur_mbx _ _)
  | _ => exact hs.congr (by simp)

/-- A node's registers after a completed recovery, its busy bits aside (R218). -/
abbrev NodeRegs.recovered (r : NodeRegs) : NodeRegs := { r with state := .init, tec := 0, recovering := false }

theorem State.EventTo.objectInv {a : Input} (h : s.EventTo a t) (hp : s.params.nMbx ≤ 32) (hw : s.mbx.wf)
    (hs : s.ObjectInv) : t.ObjectInv := by
  cases h with
  | recovered b =>
    have hn := hs.congr (State.setNode_mbx s (s.bank b).waitNode (s.node (s.bank b).waitNode).recovered)
    exact (hn.idleTransmits (State.mbx_wf_of_eq (by simp) hw) (by simpa) _).congr (State.setBank_mbx _ _ _)
  | txDone n m _ hm => exact (hs.setMoBusy hw (by omega) false).congr (State.setNode_mbx _ _ _)
  | rxStored n f _ hf _ m hm =>
    have hid : idTooWide f.ide f.id = false := by simp [CanFrame.wf] at hf; exact hf.2
    exact (hs.storeFrame hw (by omega) _ _ hid _ _).congr (State.setNode_mbx _ _ _)
  | reset => exact fun _ _ _ => ObjectWordsOk.zero
  | _ => exact hs.congr (by simp)

theorem State.StepTo.objectInv (h : s.StepTo t) (hp : s.params.nMbx ≤ 32) (hw : s.mbx.wf) (hs : s.ObjectInv) :
    t.ObjectInv := by
  cases h with
  | command a rest _ _ b w _ _ _ i _ _ t ht =>
    have hi : (s.issued b w rest).ObjectInv := hs.congr (by simp)
    rcases exec_cases ht with ⟨c, rfl⟩ | ⟨c, -, rfl⟩ | hq
    · exact hi.congr (by simp)
    · exact hi.congr (by simp)
    · exact hq.objectInv (by simpa) (State.mbx_wf_of_eq (by simp) hw) hi
  | event a rest _ _ t ht =>
    exact ht.objectInv (by simpa) (State.mbx_wf_of_eq (by simp) hw) (hs.congr (by simp))
  | _ => exact hs.congr (by simp)

/-- Settles O48: every operation on the pool writes words in range, and nothing else writes the mailbox. -/
theorem objectWordsStayInRange : Obligations.ObjectWordsStayInRange :=
  ⟨fun _ _ _ _ => ObjectWordsOk.zero, fun _ _ hp hw hs ht => (step_to ht).objectInv (nMbx_le_of_wf hp) hw hs⟩

end Sys2Proof.Machine
end

section
/-! PROOFS. The pool: the bitmaps mirror `MOCTRL`, a free object is all 0 (10_state.md R51, R54). -/

namespace Sys2Proof.Machine

variable {s t : State}

/-! ### One object -/

/-- What `State.PoolInvAt` asks of one object: its three bitmap bits are those of `MOCTRL`, a free object is all 0, and
`DLC <= 8`. -/
def State.MirroredAt (s : State) (n : NodeId) (m : Nat) : Prop :=
  bitmapGet (s.node n).nalloc m = moAlloc (s.moctrl n m) ∧
  bitmapGet (s.node n).ndir m = moDir (s.moctrl n m) ∧
  bitmapGet (s.node n).nbusy m = moBusy (s.moctrl n m) ∧
  (moAlloc (s.moctrl n m) = false → ∀ w < 6, s.mbxRead n m w = 0) ∧
  (moDlc (s.moctrl n m)).toNat ≤ 8

theorem State.poolInvAt_iff (s : State) (n : NodeId) :
    s.PoolInvAt n ↔ (∀ m < 32, s.MirroredAt n m) ∧
      ∀ m < 32, s.params.nMbx ≤ m → bitmapGet (s.node n).nalloc m = false := Iff.rfl

/-- Object `m` of node `n` reads in `t` as in `s`, its bitmap bits included. -/
def State.sameObject (s t : State) (n : NodeId) (m : Nat) : Prop :=
  bitmapGet (t.node n).nalloc m = bitmapGet (s.node n).nalloc m ∧
  bitmapGet (t.node n).ndir m = bitmapGet (s.node n).ndir m ∧
  bitmapGet (t.node n).nbusy m = bitmapGet (s.node n).nbusy m ∧ s.sameWords t n m

/-- A write of one bit leaves the others alone. -/
theorem bitmapGet_bitmapSet_ne {j m : Nat} (h : j ≠ m) (w : Word) (v : Bool) :
    bitmapGet (bitmapSet w m v) j = bitmapGet w j := by
  by_cases hm : m < 32
  · rw [bitmapGet_bitmapSet _ _ _ _ hm, if_neg h]
  · have hlt : w.getLsbD j = true → j < 32 := BitVec.lt_of_getLsbD
    cases v
    · simpa [bitmapGet, bitmapSet, BitVec.getLsbD_twoPow, hm] using hlt
    · simp [bitmapGet, bitmapSet, BitVec.getLsbD_twoPow, hm]

/-- Where only bit `m` of node `n`'s bitmaps may change, every other object with the words it had is as before. -/
theorem State.sameObject_of_bitmapSet {n : NodeId} {m : Nat} (hn : ∀ k : NodeId, k ≠ n → t.node k = s.node k)
    (ha : ∀ j, j ≠ m → bitmapGet (t.node n).nalloc j = bitmapGet (s.node n).nalloc j)
    (hd : ∀ j, j ≠ m → bitmapGet (t.node n).ndir j = bitmapGet (s.node n).ndir j)
    (hb : ∀ j, j ≠ m → bitmapGet (t.node n).nbusy j = bitmapGet (s.node n).nbusy j) {k : NodeId} {j : Nat}
    (hne : ¬(k = n ∧ j = m)) (hw : s.sameWords t k j) : s.sameObject t k j := by
  by_cases hk : k = n
  · subst hk
    have hj : j ≠ m := fun e => hne ⟨rfl, e⟩
    exact ⟨ha j hj, hd j hj, hb j hj, hw⟩
  · rw [State.sameObject, hn k hk]
    exact ⟨rfl, rfl, rfl, hw⟩

theorem State.MirroredAt.congr {n : NodeId} {m : Nat} (h : s.MirroredAt n m) (he : s.sameObject t n m) :
    t.MirroredAt n m := by
  obtain ⟨halloc, hdir, hbusy, hwords⟩ := he
  obtain ⟨ha, hd, hb, hfree, hdlc⟩ := h
  have hctrl : t.moctrl n m = s.moctrl n m := hwords 0 (by omega)
  rw [State.MirroredAt, halloc, hdir, hbusy, hctrl]
  exact ⟨ha, hd, hb, fun h w hw => (hwords w hw).trans (hfree h w hw), hdlc⟩

/-- A free object has none of its bitmap bits set, and reads 0. -/
theorem State.MirroredAt.of_free {n : NodeId} {m : Nat} (h : s.MirroredAt n m)
    (hfree : bitmapGet (s.node n).nalloc m = false) :
    bitmapGet (s.node n).ndir m = false ∧ bitmapGet (s.node n).nbusy m = false ∧ ∀ w < 6, s.mbxRead n m w = 0 := by
  obtain ⟨ha, hd, hb, hz, -⟩ := h
  have hwords := hz (ha.symm.trans hfree)
  have hctrl : s.moctrl n m = 0 := hwords 0 (by omega)
  rw [hd, hb, hctrl]
  exact ⟨by decide, by decide, hwords⟩

/-- An object of which all bitmap bits are 0 and all words read 0. -/
theorem State.MirroredAt.of_zero {n : NodeId} {m : Nat} (ha : bitmapGet (s.node n).nalloc m = false)
    (hd : bitmapGet (s.node n).ndir m = false) (hb : bitmapGet (s.node n).nbusy m = false)
    (hw : ∀ w < 6, s.mbxRead n m w = 0) : s.MirroredAt n m := by
  have hctrl : s.moctrl n m = 0 := hw 0 (by omega)
  rw [State.MirroredAt, ha, hd, hb, hctrl]
  exact ⟨by decide, by decide, by decide, fun _ => hw, by decide⟩

/-- An allocated object whose `MOCTRL.BUSY` is written with its mirror. -/
theorem State.MirroredAt.of_setBusy {n : NodeId} {m : Nat} {v : Bool} (h : s.MirroredAt n m)
    (halloc : bitmapGet (s.node n).nalloc m = true) (ha : bitmapGet (t.node n).nalloc m = bitmapGet (s.node n).nalloc m)
    (hd : bitmapGet (t.node n).ndir m = bitmapGet (s.node n).ndir m) (hb : bitmapGet (t.node n).nbusy m = v)
    (hctrl : t.moctrl n m = moSetBusy (s.moctrl n m) v) : t.MirroredAt n m := by
  obtain ⟨ha', hd', -, -, hdlc⟩ := h
  obtain ⟨hbusy, hal, hdir, -, -, hdl, -, -⟩ := moSetBusy_fields (s.moctrl n m) v
  rw [State.MirroredAt, ha, hd, hb, hctrl, hbusy, hal, hdir, hdl]
  exact ⟨ha', hd', rfl, fun h0 => absurd (halloc.symm.trans (ha'.trans h0)) (by decide), hdlc⟩

/-! ### The whole pool -/

/-- Only one object changes, one of the pool, and the parameters stay. -/
theorem State.PoolInv.update (h : s.PoolInv) (hp : t.params = s.params) {n : NodeId} {m : Nat} (hm : m < s.params.nMbx)
    (hsame : ∀ k : NodeId, ∀ j < 32, ¬(k = n ∧ j = m) → s.sameObject t k j) (hobj : t.MirroredAt n m) : t.PoolInv := by
  intro k
  rw [State.poolInvAt_iff, hp]
  refine ⟨fun j hj => ?_, fun j hj hge => ?_⟩
  · by_cases he : k = n ∧ j = m
    · obtain ⟨rfl, rfl⟩ := he; exact hobj
    · exact State.MirroredAt.congr ((h k).1 j hj) (hsame k j hj he)
  · exact (hsame k j hj fun he => by omega).1.trans ((h k).2 j hj hge)

/-- The bitmaps and the mailbox words are as before. -/
theorem State.PoolInv.congr (h : s.PoolInv) (hp : t.params = s.params)
    (hn : ∀ k : NodeId, (t.node k).nalloc = (s.node k).nalloc ∧ (t.node k).ndir = (s.node k).ndir ∧
      (t.node k).nbusy = (s.node k).nbusy) (he : t.mbx = s.mbx) : t.PoolInv := by
  intro k
  obtain ⟨ha, hd, hb⟩ := hn k
  rw [State.poolInvAt_iff, hp, ha]
  refine ⟨fun j hj => State.MirroredAt.congr ((h k).1 j hj) ⟨by rw [ha], by rw [hd], by rw [hb], ?_⟩, (h k).2⟩
  exact fun w _ => State.mbxRead_congr k he j w

theorem State.PoolInv.of_nodes (h : s.PoolInv) (hp : t.params = s.params) (hn : t.nodes = s.nodes)
    (he : t.mbx = s.mbx) : t.PoolInv :=
  h.congr hp (fun k => by simp [State.node_congr k hn]) he

/-- A write of a node's registers that leaves its bitmaps alone. -/
theorem State.PoolInv.setNode (h : s.PoolInv) (n : NodeId) (r : NodeRegs) (ha : r.nalloc = (s.node n).nalloc)
    (hd : r.ndir = (s.node n).ndir) (hb : r.nbusy = (s.node n).nbusy) : (s.setNode n r).PoolInv := by
  refine h.congr (by simp) (fun k => ?_) (by simp)
  by_cases hk : k = n
  · subst hk; simp [ha, hd, hb]
  · simp [State.node_setNode, hk]

theorem State.PoolInv.allocate (h : s.PoolInv) (hw : s.mbx.wf) (hp : s.params.nMbx ≤ 32) {n : NodeId} {m : Nat}
    (hm : m < s.params.nMbx) (dir fkind fide : Bool) (v1 v2 v3 v4 v5 : Word) :
    ((s.writeObject n m (moFresh dir fkind fide) v1 v2 v3 v4 v5).setBitmaps n m true dir false).PoolInv := by
  have hm32 : m < 32 := by omega
  refine h.update (n := n) (by simp) hm (fun k j hj hne => ?_) ?_
  · refine State.sameObject_of_bitmapSet (fun k hk => ?_) ?_ ?_ ?_ hne fun w hw' => ?_
    · simp [State.setBitmaps, State.node_setNode, hk]
    · simp +contextual [State.setBitmaps, bitmapGet_bitmapSet_ne]
    · simp +contextual [State.setBitmaps, bitmapGet_bitmapSet_ne]
    · simp +contextual [State.setBitmaps, bitmapGet_bitmapSet_ne]
    · rw [State.mbxRead_setBitmaps]
      exact State.sameWords_writeObject hw hm32 hj hne _ _ _ _ _ _ w hw'
  · obtain ⟨hal, hdir, -, -, hbusy, hdlc, -⟩ := moFresh_fields dir fkind fide
    rw [State.MirroredAt, State.moctrl, State.mbxRead_setBitmaps, State.mbxRead_writeObject hw hm32 hm32 (by omega)]
    simp [State.setBitmaps, bitmapGet_bitmapSet _ _ _ _ hm32, hal, hdir, hbusy, hdlc]

theorem State.PoolInv.setMoBusy (h : s.PoolInv) (hw : s.mbx.wf) (hp : s.params.nMbx ≤ 32) {n : NodeId} {m : Nat}
    (hm : m < s.params.nMbx) (ha : bitmapGet (s.node n).nalloc m = true) (v : Bool) : (s.setMoBusy n m v).PoolInv := by
  have hm32 : m < 32 := by omega
  have hnode := s.node_setMoBusy n n m v
  rw [if_pos rfl] at hnode
  refine h.update (n := n) (by simp) hm (fun k j hj hne => ?_) ?_
  · refine State.sameObject_of_bitmapSet (fun k hk => ?_) ?_ ?_ ?_ hne (State.sameWords_setMoBusy hw hm32 hj hne v)
    · simp [State.node_setMoBusy, hk]
    · simp [hnode]
    · simp [hnode]
    · simp +contextual [hnode, bitmapGet_bitmapSet_ne]
  · refine State.MirroredAt.of_setBusy (v := v) ((h n).1 m hm32) ha (by rw [hnode]) (by rw [hnode]) ?_ ?_
    · rw [hnode, bitmapGet_bitmapSet _ _ _ _ hm32, if_pos rfl]
    · rw [State.moctrl, State.mbxRead_setMoBusy s n n m m 0 v hw hm32 hm32 (by omega), if_pos ⟨rfl, rfl, rfl⟩]

theorem State.PoolInv.storeFrame (h : s.PoolInv) (hw : s.mbx.wf) (hp : s.params.nMbx ≤ 32) {n : NodeId} {m : Nat}
    (hm : m < s.params.nMbx) (ha : bitmapGet (s.node n).nalloc m = true) {dlc : BitVec 4} (hdlc : dlc.toNat ≤ 8)
    (rtr ide : Bool) (id dl dh : Word) : (s.storeFrame n m dlc rtr ide id dl dh).PoolInv := by
  have hm32 : m < 32 := by omega
  have hnode := s.node_storeFrame n n m dlc rtr ide id dl dh
  rw [if_pos rfl] at hnode
  refine h.update (n := n) (by simp) hm (fun k j hj hne => ?_) ?_
  · refine State.sameObject_of_bitmapSet (fun k hk => ?_) ?_ ?_ ?_ hne
      (State.sameWords_storeFrame hw hm32 hj hne dlc rtr ide id dl dh)
    · simp [State.node_storeFrame, hk]
    · simp [hnode]
    · simp [hnode]
    · simp +contextual [hnode, bitmapGet_bitmapSet_ne]
  · obtain ⟨ha', hd', -⟩ := (h n).1 m hm32
    obtain ⟨hbusy, hdl, -, -, hal, hdir, -⟩ := moSetFrame_fields (s.moctrl n m) dlc rtr ide
    have hctrl := State.mbxRead_storeFrame s n n m m 0 dlc rtr ide id dl dh hw hm32 hm32 (by omega)
    rw [if_pos ⟨rfl, rfl⟩, if_pos rfl] at hctrl
    rw [State.MirroredAt, State.moctrl, hctrl, hnode, hbusy, hdl, hal, hdir]
    exact ⟨ha', hd', by simp [bitmapGet_bitmapSet _ _ _ _ hm32],
      fun h0 => absurd (ha.symm.trans (ha'.trans h0)) (by decide), hdlc⟩

theorem State.PoolInv.releaseAll (h : s.PoolInv) (hw : s.mbx.wf) (hp : s.params.nMbx ≤ 32) (n : NodeId) :
    (s.releaseAll n).PoolInv := by
  intro k
  have hread := fun j w hj hw' => State.mbxRead_releaseAll s n k j w hw hp hj hw'
  rw [State.poolInvAt_iff, State.releaseAll_params]
  by_cases hk : k = n
  · subst hk
    have hnode := s.node_releaseAll k k
    rw [if_pos rfl] at hnode
    refine ⟨fun j hj => State.MirroredAt.of_zero (by simp [hnode]) (by simp [hnode]) (by simp [hnode]) fun w hw' => ?_,
      fun j _ _ => by simp [hnode]⟩
    rw [hread j w hj (by omega)]
    by_cases hj' : j < s.params.nMbx
    · simp [hj', hw']
    · have hfree := (h k).2 j hj (by omega)
      simp [hj', (State.MirroredAt.of_free ((h k).1 j hj) hfree).2.2 w hw']
  · have hnode := s.node_releaseAll n k
    rw [if_neg hk] at hnode
    rw [hnode]
    refine ⟨fun j hj => State.MirroredAt.congr ((h k).1 j hj) ?_, (h k).2⟩
    exact ⟨by rw [hnode], by rw [hnode], by rw [hnode], fun w hw' => by simp [hread j w hj (by omega), hk]⟩

/-- A completed recovery clears the busy bits of the node's Transmit objects (R218). -/
theorem State.bitmapGet_idleTransmits (hw : s.mbx.wf) (hp : s.params.nMbx ≤ 32) (n : NodeId) {j : Nat} (hj : j < 32) :
    bitmapGet ((s.idleTransmits n).node n).nbusy j =
      if j < s.params.nMbx ∧ bitmapGet (s.node n).ndir j = true then false else bitmapGet (s.node n).nbusy j := by
  obtain ⟨-, -, -, -, hloop⟩ := State.idleLoop_spec n (List.range s.params.nMbx) s hw
  have h := (hloop fun m hm => by have := List.mem_range.mp hm; omega).1 j hj
  simp only [List.mem_range] at h
  exact h

theorem State.PoolInv.idleTransmits (h : s.PoolInv) (hw : s.mbx.wf) (hp : s.params.nMbx ≤ 32) (n : NodeId) :
    (s.idleTransmits n).PoolInv := by
  intro k
  have hread := fun j w hj hw' => State.mbxRead_idleTransmits hw hp n k (j := j) (w := w) hj hw'
  rw [State.poolInvAt_iff, State.idleTransmits_params]
  by_cases hk : k = n
  · subst hk
    have hnode := s.node_idleTransmits k k
    rw [if_pos rfl] at hnode
    have ha : ((s.idleTransmits k).node k).nalloc = (s.node k).nalloc := by rw [hnode]
    have hd : ((s.idleTransmits k).node k).ndir = (s.node k).ndir := by rw [hnode]
    have hb := fun j hj => State.bitmapGet_idleTransmits hw hp k (j := j) hj
    rw [ha]
    refine ⟨fun j hj => ?_, (h k).2⟩
    have hobj : s.MirroredAt k j := (h k).1 j hj
    by_cases hc : j < s.params.nMbx ∧ bitmapGet (s.node k).ndir j = true
    · have halloc : bitmapGet (s.node k).nalloc j = true := by
        by_contra hfree
        simp [(hobj.of_free (by simpa using hfree)).1] at hc
      refine hobj.of_setBusy (v := false) halloc (by rw [ha]) (by rw [hd]) (by rw [hb j hj, if_pos hc]) ?_
      rw [State.moctrl, hread j 0 hj (by omega), if_pos ⟨rfl, hc.1, rfl, hc.2⟩]
    · refine hobj.congr ⟨by rw [ha], by rw [hd], by rw [hb j hj, if_neg hc], fun w hw' => ?_⟩
      rw [hread j w hj (by omega), if_neg fun ⟨_, hlt, _, hdir⟩ => hc ⟨hlt, hdir⟩]
  · have hnode := s.node_idleTransmits n k
    rw [if_neg hk] at hnode
    rw [hnode]
    refine ⟨fun j hj => State.MirroredAt.congr ((h k).1 j hj) ?_, (h k).2⟩
    exact ⟨by rw [hnode], by rw [hnode], by rw [hnode], fun w hw' => by simp [hread j w hj (by omega), hk]⟩

/-! ### Every step -/

@[simp] theorem State.node_resetWith (p : Params) (n : NodeId) : (State.resetWith p).node n = NodeRegs.reset := by
  simp [State.resetWith, State.node]

@[simp] theorem State.node_resetBlock (s : State) (n : NodeId) : s.resetBlock.node n = NodeRegs.reset :=
  State.node_resetWith s.params n

@[simp] theorem State.bank_resetWith (p : Params) (b : BankId) : (State.resetWith p).bank b = Bank.reset := by
  cases b <;> rfl

@[simp] theorem State.bank_resetBlock (s : State) (b : BankId) : s.resetBlock.bank b = Bank.reset := by cases b <;> rfl

/-- At reset no bitmap bit is set and every mailbox word reads 0 (R340). -/
theorem State.resetWith_poolInv (p : Params) : (State.resetWith p).PoolInv := by
  intro n
  have hn := State.node_resetWith p n
  rw [State.poolInvAt_iff, hn]
  exact ⟨fun m _ => State.MirroredAt.of_zero (by simp [hn, NodeRegs.reset]) (by simp [hn, NodeRegs.reset])
    (by simp [hn, NodeRegs.reset]) fun _ _ => rfl, fun m _ _ => by simp [NodeRegs.reset]⟩

theorem State.Succeeds.poolInv {i : Instr} (h : s.Succeeds i t) (hp : s.params.nMbx ≤ 32) (hd : s.params.dlcMax ≤ 8)
    (hw : s.mbx.wf) (hs : s.PoolInv) : t.PoolInv := by
  cases h with
  | mbxAlloc n m _ hm =>
    exact (hs.allocate hw hp hm _ _ _ _ _ _ _ _).of_nodes (State.setCur_params _ _) (State.setCur_nodes _ _)
      (State.setCur_mbx _ _)
  | mbxReleaseAll n => exact (hs.releaseAll hw hp n).of_nodes (by simp) (by simp) (by simp)
  | nodeConfigure n =>
    have hfree := (hs.releaseAll hw hp n).of_nodes (State.setProt_params _ ⟨false, false, .fg⟩)
      (State.setProt_nodes _ _) (State.setProt_mbx _ _)
    refine State.PoolInv.of_nodes (hfree.setNode n _ ?_ ?_ ?_) (State.setCur_params _ _) (State.setCur_nodes _ _)
      (State.setCur_mbx _ _) <;> rfl
  | nodeTransmit n m _ hm ha _ _ hl =>
    exact (hs.storeFrame hw hp hm ha (by omega) _ _ _ _ _).of_nodes (State.setCur_params _ _) (State.setCur_nodes _ _)
      (State.setCur_mbx _ _)
  | nodeTryReceive n m hm ha =>
    exact (hs.setMoBusy hw hp hm ha false).of_nodes (State.setCur_params _ _) (State.setCur_nodes _ _)
      (State.setCur_mbx _ _)
  | nodeStart n | nodeSleep n | nodeWake n | nodeRecover n | irqEnable n | irqDisable n | irqAck n =>
    refine State.PoolInv.of_nodes (hs.setNode n _ ?_ ?_ ?_) (State.setCur_params _ _) (State.setCur_nodes _ _)
      (State.setCur_mbx _ _) <;> rfl
  | _ => exact hs.of_nodes (by simp) (by simp) (by simp)

theorem State.EventTo.poolInv {a : Input} (h : s.EventTo a t) (hp : s.params.nMbx ≤ 32) (hd : s.params.dlcMax ≤ 8)
    (hw : s.mbx.wf) (hs : s.PoolInv) : t.PoolInv := by
  cases h with
  | recovEnded b =>
    refine State.PoolInv.of_nodes (hs.setNode _ _ ?_ ?_ ?_) (State.setBank_params _ _ _) (State.setBank_nodes _ _ _)
      (State.setBank_mbx _ _ _) <;> rfl
  | recovered b =>
    have hn := hs.setNode (s.bank b).waitNode (s.node (s.bank b).waitNode).recovered rfl rfl rfl
    exact (hn.idleTransmits (State.mbx_wf_of_eq (by simp) hw) (by simpa) _).of_nodes (State.setBank_params _ _ _)
      (State.setBank_nodes _ _ _) (State.setBank_mbx _ _ _)
  | txDone n m _ hm he =>
    have ha : bitmapGet (s.node n).nalloc m = true := by simp [State.txDoneEnabled] at he; exact he.1.1.2
    exact (hs.setMoBusy hw hp hm ha false).setNode n _ (by simp [State.node_setMoBusy])
      (by simp [State.node_setMoBusy]) (by simp [State.node_setMoBusy])
  | rxStored n f _ hf _ m hm ha =>
    have hdlc : f.dlc.toNat ≤ s.params.dlcMax := by simp [CanFrame.wf] at hf; exact hf.1
    exact (hs.storeFrame hw hp hm ha (by omega) _ _ _ _ _).setNode n _ (by simp [State.node_storeFrame])
      (by simp [State.node_storeFrame]) (by simp [State.node_storeFrame])
  | rxLost n | rxWake n | busError n | busOff n | idleSeq n => exact hs.setNode n _ rfl rfl rfl
  | reset => exact State.resetWith_poolInv s.params
  | _ => exact hs.of_nodes (by simp) (by simp) (by simp)

end Sys2Proof.Machine
end

section
/-! PROOFS. What the registers of one node keep through every step (10_state.md R48, R50, R59, R196 (a)), and the validity of
every computed timing (42_bittiming.md R180). -/

namespace Sys2Proof.Machine

variable {s t : State}

/-! ### Computed timings -/

/-- The search of R176 answers one of its candidates. -/
theorem btSearch_mem {pr : Params} {clk br sp : Nat} {c : BtCand} (h : btSearch pr clk br sp = some c) :
    c ∈ btCandidates pr clk br sp := by
  have loop : ∀ (l : List BtCand) (best : Option BtCand), l.foldl BtCand.better best = some c → best = some c ∨ c ∈ l := by
    intro l
    induction l with
    | nil => exact fun best h => .inl h
    | cons x l ih =>
      intro best h
      rcases ih _ h with hb | hl
      · cases best with
        | none => exact .inr (by simp_all [BtCand.better])
        | some b =>
          simp only [BtCand.better] at hb
          split at hb
          · exact .inr (by simp_all)
          · exact .inl hb
      · exact .inr (List.mem_cons_of_mem x hl)
  exact (loop _ none h).resolve_left (by simp)

/-- A candidate has a prescaler in range, a quanta count in range and a legal split (R174, R175). -/
theorem btCandidates_bounds {pr : Params} {clk br sp : Nat} {c : BtCand} (h : c ∈ btCandidates pr clk br sp) :
    (1 ≤ c.brp ∧ c.brp ≤ pr.brpMax) ∧ (pr.nqMin ≤ c.nq ∧ c.nq ≤ pr.nqMax) ∧
      (1 ≤ c.tseg1 ∧ c.tseg1 ≤ pr.tseg1Max) ∧ c.nq ≤ 1 + c.tseg1 + pr.tseg2Max ∧ c.tseg1 + 2 ≤ c.nq ∧
      c.tseg2 = c.nq - 1 - c.tseg1 := by
  simp only [btCandidates, List.mem_flatMap, List.mem_range'_1] at h
  obtain ⟨brp, hbrp, hc⟩ := h
  split at hc
  · next hf =>
    simp only [btFeasible, Bool.and_eq_true, decide_eq_true_eq] at hf
    simp only [btSplits, List.mem_map, List.mem_range'_1] at hc
    obtain ⟨tseg1, ht, rfl⟩ := hc
    dsimp only
    omega
  · simp at hc

/-- Every timing `bt_compute` returns satisfies R173 as the register holds it (R180). -/
theorem btCompute_valid {pr : Params} (hp : pr.wf) {clk br sp tol : Nat} {r : BtResult}
    (h : btCompute pr clk br sp tol = .ok r) : r.btr.valid pr := by
  obtain ⟨-, -, ⟨hnq, -, -⟩, hsjw, ht1, ht2, hs, hbrp, -⟩ := hp
  unfold btCompute at h
  split at h
  · simp at h
  split at h
  · simp at h
  split at h
  · simp at h
  next c hc =>
  split at h
  · simp at h
  injection h with h
  subst h
  have hb := btCandidates_bounds (btSearch_mem hc)
  have hj : btSjw pr c ≤ 7 := by unfold btSjw; omega
  simp only [Btr.valid, timingOk, BtResult.btr]
  rw [toNat_ofNat_of_lt (by omega), toNat_ofNat_of_lt (by omega), toNat_ofNat_of_lt (by omega),
    toNat_ofNat_of_lt (by omega)]
  unfold btSjw
  omega

/-! ### The form of `NALLOC` -/

/-- `NALLOC` with its first `k` bits set (R196 (a)). -/
theorem bitmapGet_of_toNat {w : Word} {k : Nat} (h : w.toNat = 2 ^ k - 1) (i : Nat) : bitmapGet w i = decide (i < k) := by
  rw [bitmapGet, BitVec.getLsbD, h, Nat.testBit_two_pow_sub_one]

/-- First fit allocates the object right after those already allocated. -/
theorem toNat_bitmapSet_first {w : Word} {k m : Nat} (h : w.toNat = 2 ^ k - 1) (hm : m < 32)
    (hfree : bitmapGet w m = false) (hleast : ∀ i < m, bitmapGet w i = true) :
    (bitmapSet w m true).toNat = 2 ^ (m + 1) - 1 := by
  have hget := bitmapGet_of_toNat h
  have hkm : k = m := by
    have hge : ¬ m < k := by simpa [hget] using hfree
    have hle : ¬ k < m := fun hlt => by simpa [hget] using hleast k hlt
    omega
  apply Nat.eq_of_testBit_eq
  intro i
  have hset : (bitmapSet w m true).toNat.testBit i = bitmapGet (bitmapSet w m true) i := rfl
  rw [hset, bitmapGet_bitmapSet _ _ _ _ hm, hget, Nat.testBit_two_pow_sub_one]
  split <;> simp only [decide_eq_decide, true_eq_decide_iff] <;> omega

/-! ### The invariant of one node's registers -/

/-- What `State.LatchInv`, `State.FillInv` and `State.NodeInv` ask of one node. -/
structure NodeRegs.Good (p : Params) (r : NodeRegs) : Prop where
  latch : r.LatchInv
  fill : ∃ k ≤ p.nMbx, r.nalloc.toNat = 2 ^ k - 1
  started : r.state ≠ .init → r.configured = true ∧ r.nalloc ≠ 0
  busOff : p.busoffTec < r.tec.toNat → r.state = .busOff
  tec : r.tec.toNat ≤ p.tecMax
  recCnt : r.recCnt.toNat ≤ p.recovSeq
  timing : r.configured = true → r.nbtr.valid p

theorem State.good_iff (s : State) :
    (∀ n : NodeId, (s.node n).Good s.params) ↔ s.LatchInv ∧ s.FillInv ∧ s.NodeInv := by
  constructor
  · exact fun h => ⟨fun n => (h n).latch, fun n => (h n).fill,
      fun n => ⟨(h n).started, (h n).busOff, (h n).tec, (h n).recCnt, (h n).timing⟩⟩
  · rintro ⟨hl, hf, hn⟩ n
    obtain ⟨hst, hbo, htec, hrec, htm⟩ := hn n
    exact ⟨hl n, hf n, hst, hbo, htec, hrec, htm⟩

theorem NodeRegs.good_reset (p : Params) : NodeRegs.reset.Good p where
  latch := by decide
  fill := ⟨0, Nat.zero_le _, rfl⟩
  started := fun h => absurd rfl h
  busOff := fun h => absurd h (Nat.not_lt_zero _)
  tec := Nat.zero_le _
  recCnt := Nat.zero_le _
  timing := fun h => by cases h

variable {p : Params} {r : NodeRegs}

/-- A node outside `BusOff` has its error counter within the threshold, so it may take any other state. -/
theorem NodeRegs.Good.setState (h : r.Good p) {x : NodeState} (hne : r.state ≠ .busOff)
    (hst : x ≠ .init → r.configured = true ∧ r.nalloc ≠ 0) : NodeRegs.Good p { r with state := x } :=
  { h with started := hst, busOff := fun hlt => absurd (h.busOff hlt) hne }

theorem NodeRegs.Good.recovered (h : r.Good p) : NodeRegs.Good p r.recovered :=
  { h with
    started := fun hne => absurd rfl hne
    busOff := fun hlt => absurd hlt (Nat.not_lt_zero _)
    tec := Nat.zero_le _ }

/-- An empty pool fits a node in `Init`. -/
theorem NodeRegs.Good.released (h : r.Good p) (hst : r.state = .init) :
    NodeRegs.Good p { r with nalloc := 0, ndir := 0, nbusy := 0 } :=
  { h with fill := ⟨0, Nat.zero_le _, rfl⟩, started := fun hne => absurd hst hne }

/-- Latches and enables of a node, with every latch still under its enable. -/
theorem NodeRegs.Good.setLatches (h : r.Good p) {e q : KindBits} {pr : KindPrios}
    (hl : ∀ k, q.get k = true → e.get k = true) : NodeRegs.Good p { r with nie := e, prio := pr, nip := q } :=
  { h with latch := ⟨hl .txc, hl .rxp, hl .berr⟩ }

theorem NodeRegs.Good.latched (h : r.Good p) (k : EventKind) : r.nip.get k = true → r.nie.get k = true := by
  obtain ⟨ht, hr, hb⟩ := h.latch
  cases k
  · exact ht
  · exact hr
  · exact hb

/-- A command that succeeds keeps every node's invariant. -/
theorem State.Succeeds.good {i : Instr} (h : s.Succeeds i t) (hp : s.params.wf)
    (hg : ∀ n : NodeId, (s.node n).Good s.params) (k : NodeId) : (t.node k).Good s.params := by
  by_cases hk : i.node = some k
  swap
  · rw [h.node_eq hk]; exact hg k
  have hk' := hg k
  cases h with
  | mbxAlloc n m hst hm hfree _ _ _ hleast =>
    cases hk
    obtain ⟨i, hi, hn⟩ := hk'.fill
    have hfill := toNat_bitmapSet_first hn (by omega) hfree hleast
    simp only [State.node_setCur, State.setBitmaps, State.node_setNode_same, State.node_mbxWrite]
    exact { hk' with fill := ⟨m + 1, hm, hfill⟩, started := fun hne => absurd hst hne }
  | mbxReleaseAll n hst =>
    cases hk
    rw [State.coded_node, State.node_releaseAll, if_pos rfl]
    exact hk'.released hst
  | nodeConfigure n r hst _ h =>
    cases hk
    rw [State.node_setCur, State.node_setNode_same, State.node_releaseAll, if_pos rfl]
    exact { hk'.released hst with
      started := fun hne => absurd hst hne
      timing := fun _ => btCompute_valid hp h }
  | nodeStart n hst hc ha =>
    cases hk
    rw [State.coded_node, State.node_setNode_same]
    exact hk'.setState (by simp [hst]) fun _ => ⟨hc, ha⟩
  | nodeSleep n hst =>
    cases hk
    rw [State.coded_node, State.node_setNode_same]
    exact hk'.setState (by simp [hst]) fun _ => hk'.started (by simp [hst])
  | nodeWake n hst =>
    cases hk
    rw [State.coded_node, State.node_setNode_same]
    exact hk'.setState (by simp [hst]) fun _ => hk'.started (by simp [hst])
  | nodeTransmit n =>
    cases hk
    rw [State.node_setCur, State.node_storeFrame, if_pos rfl]
    exact { hk' with }
  | nodeTryReceive n =>
    cases hk
    rw [State.node_setCur, State.node_setMoBusy, if_pos rfl]
    exact { hk' with }
  | nodeRecover n =>
    cases hk
    rw [State.node_setCur, State.node_setNode_same]
    exact { hk' with recCnt := Nat.zero_le _ }
  | irqEnable n j =>
    cases hk
    rw [State.coded_node, State.node_setNode_same]
    refine hk'.setLatches fun x hx => ?_
    rw [KindBits.get_set]
    split
    · rfl
    · exact hk'.latched x hx
  | irqDisable n j =>
    cases hk
    rw [State.coded_node, State.node_setNode_same]
    refine hk'.setLatches fun x hx => ?_
    rw [KindBits.get_set] at hx ⊢
    split at hx
    · simp at hx
    · next hne => rw [if_neg hne]; exact hk'.latched x hx
  | irqAck n j =>
    cases hk
    rw [State.coded_node, State.node_setNode_same]
    refine hk'.setLatches fun x hx => ?_
    rw [KindBits.get_set] at hx
    split at hx
    · simp at hx
    · exact hk'.latched x hx
  | _ => simpa using hk'

/-! ### The node of an event -/

/-- The node an event concerns: the one it names, or the one whose recovery the polled bank waits for. -/
def State.eventNode (s : State) : Input → Option NodeId
  | .txDone n _ | .rxFrame n _ | .busError n _ | .idleSeq n => some n
  | .waitStep b => if (s.bank b).waitKind = .recov then some (s.bank b).waitNode else none
  | .portRead _ _ | .portWrite _ _ _ | .busRead _ _ | .busWrite _ _ _ | .lockSet | .reset => none

/-- An event writes the registers of no node but the one it concerns, reset aside. -/
theorem State.EventTo.node_eq {a : Input} (h : s.EventTo a t) (ha : a ≠ .reset) {k : NodeId}
    (hk : s.eventNode a ≠ some k) : t.node k = s.node k := by
  cases h
  case reset => exact absurd rfl ha
  all_goals
    simp_all [State.eventNode, State.node_setNode, State.node_storeFrame, State.node_setMoBusy,
      State.node_idleTransmits, eq_comm (b := k)]

/-- A latch that an event sets only where the kind is enabled stays under its enable. -/
theorem enabled_of_latched {q e : Bool} (h : q = true → e = true) (hq : (q || e) = true) : e = true := by
  cases e <;> simp_all

theorem State.EventTo.good {a : Input} (h : s.EventTo a t) (hp : s.params.wf)
    (hg : ∀ n : NodeId, (s.node n).Good s.params) (k : NodeId) : (t.node k).Good s.params := by
  by_cases ha : a = .reset
  · subst ha
    cases h
    exact State.node_resetWith s.params k ▸ NodeRegs.good_reset s.params
  by_cases hk : s.eventNode a = some k
  swap
  · rw [h.node_eq ha hk]; exact hg k
  have htec := tecMax_le_of_wf hp
  have hseq := recovSeq_le_of_wf hp
  have hk' := hg k
  cases h with
  | reset => exact absurd rfl ha
  | lockSet | ended | locked | lockTimeout | counted | rxIgnored => simpa using hk'
  | recovEnded b _ hkind =>
    simp only [State.eventNode, hkind, if_true, Option.some.injEq] at hk
    subst hk
    rw [State.node_setBank, State.node_setNode_same]
    exact { hk' with }
  | recovered b _ hkind =>
    simp only [State.eventNode, hkind, if_true, Option.some.injEq] at hk
    subst hk
    rw [State.node_setBank, State.node_idleTransmits, if_pos rfl, State.node_setNode_same]
    exact { hk'.recovered with }
  | txDone n m =>
    cases hk
    rw [State.node_setNode_same]
    exact { hk' with latch := ⟨enabled_of_latched hk'.latch.1, hk'.latch.2⟩ }
  | rxStored n =>
    cases hk
    rw [State.node_setNode_same]
    exact { hk' with latch := ⟨hk'.latch.1, enabled_of_latched hk'.latch.2.1, hk'.latch.2.2⟩ }
  | rxLost n =>
    cases hk
    rw [State.node_setNode_same]
    exact { hk' with }
  | rxWake n _ _ hst =>
    cases hk
    rw [State.node_setNode_same]
    exact hk'.setState (by simp [hst]) fun _ => hk'.started (by simp [hst])
  | busError n v _ hv hst hle =>
    cases hk
    rw [State.node_setNode_same]
    have hval : (BitVec.ofNat 9 v).toNat = v := toNat_ofNat_of_lt (by omega)
    exact { hk' with
      latch := ⟨hk'.latch.1, hk'.latch.2.1, enabled_of_latched hk'.latch.2.2⟩
      busOff := fun hlt => absurd hle (Nat.not_le.mpr (hval ▸ hlt))
      tec := hval.trans_le hv }
  | busOff n v _ hv hst =>
    cases hk
    rw [State.node_setNode_same]
    have hval : (BitVec.ofNat 9 v).toNat = v := toNat_ofNat_of_lt (by omega)
    exact { hk' with
      latch := ⟨hk'.latch.1, hk'.latch.2.1, enabled_of_latched hk'.latch.2.2⟩
      started := fun _ => hk'.started (by simp [hst])
      busOff := fun _ => rfl
      tec := hval.trans_le hv
      recCnt := Nat.zero_le _ }
  | idleSeq n =>
    cases hk
    rw [State.node_setNode_same]
    have hval : (BitVec.ofNat 8 (min ((s.node k).recCnt.toNat + 1) s.params.recovSeq)).toNat ≤ s.params.recovSeq := by
      rw [toNat_ofNat_of_lt (by omega)]; omega
    exact { hk' with recCnt := hval }

end Sys2Proof.Machine
end

section
/-! PROOFS. The invariant of the whole state (10_state.md R59), clause by clause: reset meets it and every step keeps it. -/

namespace Sys2Proof.Machine

variable {s t : State}

/-! ### The command's node exists -/

/-- The opcode map gives a block-wide command for class C0 and a command of the given node for class CN (R102). -/
theorem opRow_node (o : BitVec 8) :
    (∀ i, opRow o = some (.c0 i) → i.node = none) ∧ ∀ f, opRow o = some (.cn f) → ∀ n, (f n).node = some n := by
  unfold opRow
  split <;> simp [Instr.node]

/-- The decoder lets no command of a node the block does not have through (R106). -/
theorem decode_node_lt {N : Nat} {w : Word} {i : Instr} (h : decode N w = .ok i) {n : NodeId} (hn : i.node = some n) :
    n.val < N := by
  obtain ⟨hc0, hcn⟩ := opRow_node (opcOf w)
  unfold decode at h
  split at h
  · simp at h
  split at h
  · simp at h
  · next j hj =>
    split at h
    · injection h with h; subst h; simp [hc0 j hj] at hn
    · simp at h
  · next f hf =>
    split at h
    · next hlt =>
      injection h with h; subst h
      rw [hcn f hf] at hn
      injection hn with hn
      exact hn ▸ hlt
    · simp at h

/-! ### The banks: R27 and R305 -/

theorem State.bankInv_iff (s : State) : s.BankInv ↔ ∀ b, (s.bank b).Inv :=
  ⟨fun h b => by cases b; exacts [h.1, h.2], fun h => ⟨h .fg, h .irq⟩⟩

/-- A free bank waits for nothing. -/
theorem Bank.Inv.waitKind_eq {bk : Bank} (h : bk.Inv) (hb : bk.busy = false) : bk.waitKind = .none := by
  by_contra hk
  exact absurd (h.1.mpr hk) (by simp [hb])

/-- A bank without a wait, whatever else it holds. -/
theorem Bank.inv_of_free {bk : Bank} (hb : bk.busy = false) (hk : bk.waitKind = .none) : bk.Inv := by
  simp [Bank.Inv, hb, hk]

/-- A command that succeeds on a free bank leaves it free, or waiting with a fresh counter. -/
theorem State.Succeeds.curInv {i : Instr} (h : s.Succeeds i t) (hb : s.cur.busy = false) (hs : s.cur.Inv) :
    t.cur.Inv := by
  have hk := hs.waitKind_eq hb
  have hzero : ∀ x : Word, 0#32 ≤ x := fun x => by simp [BitVec.le_def]
  cases h <;> simp [Bank.Inv, Bank.setBtResult, hb, hk, hzero]

theorem State.Succeeds.bankInv {i : Instr} (h : s.Succeeds i t) (hb : s.cur.busy = false) (hs : ∀ b, (s.bank b).Inv)
    (b : BankId) : (t.bank b).Inv := by
  by_cases he : b = s.issuer
  · subst he
    have hcur := h.curInv hb (hs s.issuer)
    rwa [State.cur, h.issuer_eq] at hcur
  · rw [h.bank_other he]; exact hs b

theorem State.EventTo.bankInv {a : Input} (h : s.EventTo a t) (hs : ∀ b, (s.bank b).Inv) (b : BankId) :
    (t.bank b).Inv := by
  cases h with
  | ended c | locked c | lockTimeout c | recovEnded c | recovered c =>
    rw [State.bank_setBank]
    split
    · exact Bank.inv_of_free rfl rfl
    · simpa using hs b
  | counted c _ _ hc =>
    rw [State.bank_setBank]
    split
    · obtain ⟨hbusy, hpending⟩ := hs c
      refine ⟨hbusy, fun hb => ⟨(hpending hb).1, ?_⟩⟩
      have hle := (hpending hb).2
      bv_omega
    · exact hs b
  | reset => rw [State.bank_resetBlock]; exact Bank.inv_of_free rfl rfl
  | _ => simpa using hs b

/-- No event makes a free bank busy. -/
theorem State.EventTo.busy_of_busy {a : Input} (h : s.EventTo a t) {b : BankId} (hb : (t.bank b).busy = true) :
    (s.bank b).busy = true := by
  cases h with
  | ended c hc | locked c hc | lockTimeout c hc | counted c hc | recovEnded c hc | recovered c hc =>
    by_cases he : b = c
    · exact he ▸ hc
    · simpa [State.bank_setBank, he] using hb
  | reset => simp [Bank.reset] at hb
  | _ => simpa using hb

theorem State.EventTo.faultInv {a : Input} (h : s.EventTo a t) (hs : s.FaultInv) : t.FaultInv := by
  intro hf
  have hf' : s.faultReg ≠ none := by
    cases h with
    | reset => simp [State.resetBlock, State.resetWith] at hf
    | _ => simpa using hf
  obtain ⟨h0, h1⟩ := hs hf'
  refine ⟨?_, ?_⟩ <;> by_contra hb
  · exact absurd (h.busy_of_busy (b := .fg) (by simpa using hb)) (by simp [h0])
  · exact absurd (h.busy_of_busy (b := .irq) (by simpa using hb)) (by simp [h1])

/-! ### The guard and the clock: R31, R32, R38 -/

theorem State.Succeeds.protInv {i : Instr} (h : s.Succeeds i t) (hs : s.ProtInv) : t.ProtInv := by
  cases h
  case guardAcq | guardRel | clkConfigure | clkReinit | nodeConfigure => simp [State.ProtInv]
  all_goals simpa [State.ProtInv] using hs

theorem State.EventTo.protInv {a : Input} (h : s.EventTo a t) (hs : s.ProtInv) : t.ProtInv := by
  cases h with
  | reset => simp [State.ProtInv, State.resetBlock, State.resetWith]
  | _ => simpa [State.ProtInv] using hs

/-- Outside `Locked` no domain is enabled. -/
theorem State.ClockInv.clken_eq (hs : s.ClockInv) (h : s.pllstat.state ≠ .locked) :
    s.clken = ⟨false, false, false⟩ := by
  by_contra hc
  exact h (hs.1 hc)

theorem State.ClockInv.lockBit_of_locked (hs : s.ClockInv) (h : s.pllstat.state = .locked) :
    s.pllstat.lockBit = true := by
  obtain ⟨-, hlock, -⟩ := hs
  exact hlock h

theorem State.ClockInv.congr (hs : s.ClockInv) (hc : s.sameClock t) : t.ClockInv := by
  obtain ⟨h1, h2, h3, h4, h5, h6, h7, h8, h9⟩ := hc
  rw [State.ClockInv, h1, h2, h3, h4, h5, h6, h7, h8, h9]
  exact hs

theorem State.Succeeds.clockInv {i : Instr} (h : s.Succeeds i t) (hs : s.ClockInv) : t.ClockInv := by
  cases h with
  | clkConfigure _ _ _ _ _ _ _ _ _ _ hst =>
    have hc := hs.clken_eq (by rcases hst with h | h <;> simp [h])
    simp [State.ClockInv, State.applyClock, hc]
  | clkReinit hst =>
    have hc := hs.clken_eq (by simp [hst])
    simp [State.ClockInv, hc]
  | clkDomainEnable d hst =>
    have hl := hs.lockBit_of_locked hst
    simp [State.ClockInv, hst, hl]
  | _ => exact hs.congr (by simp [State.sameClock])

theorem State.EventTo.clockInv {a : Input} (h : s.EventTo a t) (hs : s.ClockInv) : t.ClockInv := by
  cases h with
  | lockSet hst | locked _ _ _ hst | lockTimeout _ _ _ hst =>
    have hc := hs.clken_eq (by simp [hst])
    simp_all [State.ClockInv]
  | reset => simp [State.ClockInv, State.resetBlock, State.resetWith]
  | _ => exact hs.congr (by simp [State.sameClock])

/-! ### The nodes the block does not have: R43 -/

theorem State.Succeeds.unusedInv {i : Instr} (h : s.Succeeds i t) (hi : ∀ n, i.node = some n → n.val < s.params.nNode)
    (hp : t.params = s.params) (hs : s.UnusedInv) : t.UnusedInv := by
  intro k hk
  rw [hp] at hk
  rw [h.node_eq fun hn => absurd (hi k hn) (by omega)]
  exact hs k hk

/-- No bank waits for the recovery of a node that is not recovering. -/
theorem State.RecovInv.recovering_of_wait (hs : s.RecovInv) {b : BankId} (hk : (s.bank b).waitKind = .recov) :
    (s.node (s.bank b).waitNode).recovering = true := by
  by_contra hr
  have hw : s.waitsFor b (s.bank b).waitNode = true := (State.waitsFor_iff s b _).mpr ⟨hk, rfl⟩
  obtain ⟨h0, h1⟩ := (hs (s.bank b).waitNode).2 (by simpa using hr)
  cases b
  · exact absurd (h0.symm.trans hw) (by decide)
  · exact absurd (h1.symm.trans hw) (by decide)

theorem State.EventTo.unusedInv {a : Input} (h : s.EventTo a t) (hr : s.RecovInv) (hp : t.params = s.params)
    (hs : s.UnusedInv) : t.UnusedInv := by
  intro k hk
  rw [hp] at hk
  have hk' := hs k hk
  by_cases ha : a = .reset
  · subst ha; cases h; exact State.node_resetWith s.params k
  by_cases he : s.eventNode a = some k
  swap
  · rw [h.node_eq ha he]; exact hk'
  cases h with
  | reset => exact absurd rfl ha
  | lockSet | ended | locked | lockTimeout | counted | rxIgnored => simpa using hk'
  | recovEnded b _ hkind | recovered b _ hkind =>
    simp only [State.eventNode, hkind, if_true, Option.some.injEq] at he
    have hrec := hr.recovering_of_wait hkind
    rw [he, hk'] at hrec
    cases hrec
  | txDone n _ hn | rxStored n _ hn | rxLost n _ hn | rxWake n _ hn | busError n _ hn | busOff n _ hn | idleSeq n hn =>
    cases he
    omega

/-! ### Recoveries: R59's clause on `RECOVERING` -/

/-- The waits and the recoveries are as before, and a node in `BusOff` stays there. -/
theorem State.RecovInv.congr (hs : s.RecovInv) (hw : ∀ b n, t.waitsFor b n = s.waitsFor b n)
    (hn : ∀ n : NodeId, (t.node n).recovering = (s.node n).recovering ∧
      ((s.node n).state = .busOff → (t.node n).state = .busOff)) : t.RecovInv := by
  intro k
  obtain ⟨hr, hst⟩ := hn k
  rw [hw, hw, hr]
  exact ⟨fun h => ⟨hst ((hs k).1 h).1, ((hs k).1 h).2⟩, (hs k).2⟩

/-- No node recovers and no bank waits for a recovery. -/
theorem State.recovInv_of_none (hw : ∀ b, (s.bank b).waitKind ≠ .recov) (hn : ∀ n : NodeId, (s.node n).recovering = false) :
    s.RecovInv := by
  intro k
  have hf : ∀ b, s.waitsFor b k = false := fun b => by simp [State.waitsFor, hw b]
  rw [hn k, hf, hf]
  simp

/-- The bank that waits for a node's recovery ends its wait, and the node its recovery. -/
theorem State.RecovInv.ended (hs : s.RecovInv) {b : BankId} (hk : (s.bank b).waitKind = .recov)
    (hb : (t.bank b).waitKind = .none) (ho : t.bank b.other = s.bank b.other)
    (hr : (t.node (s.bank b).waitNode).recovering = false)
    (hn : ∀ k : NodeId, k ≠ (s.bank b).waitNode → t.node k = s.node k) : t.RecovInv := by
  have hsame : ∀ k, t.waitsFor b.other k = s.waitsFor b.other k := fun k => by simp only [State.waitsFor, ho]
  have hself : ∀ k, t.waitsFor b k = false := fun k => by simp [State.waitsFor, hb]
  intro k
  by_cases he : k = (s.bank b).waitNode
  · subst he
    have hwait : s.waitsFor b (s.bank b).waitNode = true := (State.waitsFor_iff s b _).mpr ⟨hk, rfl⟩
    have hone := ((hs _).1 (hs.recovering_of_wait hk)).2
    rw [hr]
    refine ⟨fun h => (by cases h), fun _ => ?_⟩
    cases b <;> simp_all [BankId.other]
  · have hwait : s.waitsFor b k = false := by simp [State.waitsFor, Ne.symm he]
    have hk' := hs k
    rw [hn k he]
    cases b <;> simp_all [BankId.other]

/-- Only `NODE_RECOVER` starts a recovery wait. -/
theorem State.Succeeds.waitsFor_eq {i : Instr} (h : s.Succeeds i t) (hi : ∀ n, i ≠ .nodeRecover n)
    (hk : s.cur.waitKind = .none) (b : BankId) (n : NodeId) : t.waitsFor b n = s.waitsFor b n := by
  by_cases he : b = s.issuer
  · have hcur : t.cur.waitKind ≠ .recov := by
      cases h
      case nodeRecover => exact absurd rfl (hi _)
      all_goals simp [Bank.setBtResult, hk]
    rw [State.cur, h.issuer_eq, ← he] at hcur
    rw [State.cur, ← he] at hk
    simp [State.waitsFor, hcur, hk]
  · simp only [State.waitsFor, h.bank_other he]

/-- Only `NODE_RECOVER` starts a recovery, and no command takes a node out of `BusOff`. -/
theorem State.Succeeds.recovering_eq {i : Instr} (h : s.Succeeds i t) (hi : ∀ n, i ≠ .nodeRecover n) (k : NodeId) :
    (t.node k).recovering = (s.node k).recovering ∧ ((s.node k).state = .busOff → (t.node k).state = .busOff) := by
  by_cases hk : i.node = some k
  swap
  · simp [h.node_eq hk]
  cases h with
  | nodeRecover n => exact absurd rfl (hi n)
  | mbxAlloc | mbxReleaseAll | mbxRead | nodeConfigure | nodeStart | nodeTransmit | nodeTryReceive | nodeBusState
  | nodeSleep | nodeWake | irqEnable | irqDisable | irqAck =>
    cases hk
    simp_all [State.setBitmaps, State.node_releaseAll, State.node_storeFrame, State.node_setMoBusy]
  | _ => cases hk

/-- `NODE_RECOVER` of a node that is not recovering: the issuing bank becomes the one that waits for it. -/
theorem State.Succeeds.recovInv_nodeRecover {n : NodeId} (h : s.Succeeds (.nodeRecover n) t)
    (hk : s.cur.waitKind = .none) (hs : s.RecovInv) : t.RecovInv := by
  have hother : ∀ k, t.waitsFor s.issuer.other k = s.waitsFor s.issuer.other k := fun k => by
    simp only [State.waitsFor, h.bank_other (BankId.other_ne _)]
  have hnone : ∀ k, s.waitsFor s.issuer k = false := fun k => by
    rw [State.cur] at hk; simp [State.waitsFor, hk]
  intro k
  have hk' := hs k
  by_cases he : k = n
  · subst he
    cases h with
    | nodeRecover _ hst hr =>
      have hself : ((s.setNode k { s.node k with recovering := true, recCnt := 0 }).waiting .recov k
          s.cur.arg0).waitsFor s.issuer k = true := by simp [State.waitsFor, State.bank_setCur]
      generalize s.issuer = b at hself hother hnone
      cases b <;> simp_all [BankId.other]
  · have hself : t.waitsFor s.issuer k = false := by
      cases h
      simp [State.waitsFor, State.bank_setCur, Ne.symm he]
    rw [h.node_eq (by simp [Instr.node, Ne.symm he])]
    generalize s.issuer = b at hself hother hnone
    cases b <;> simp_all [BankId.other]

theorem State.Succeeds.recovInv {i : Instr} (h : s.Succeeds i t) (hk : s.cur.waitKind = .none) (hs : s.RecovInv) :
    t.RecovInv := by
  by_cases hi : ∀ n, i ≠ .nodeRecover n
  · exact hs.congr (h.waitsFor_eq hi hk) (h.recovering_eq hi)
  simp only [ne_eq, not_forall, Decidable.not_not] at hi
  obtain ⟨n, rfl⟩ := hi
  exact h.recovInv_nodeRecover hk hs

theorem State.EventTo.recovInv {a : Input} (h : s.EventTo a t) (hs : s.RecovInv) : t.RecovInv := by
  cases h with
  | ended b _ hk | locked b _ hk | lockTimeout b _ hk =>
    refine hs.congr (fun c n => ?_) fun n => by simp
    by_cases hc : c = b
    · subst hc; simp [State.waitsFor, hk]
    · simp [State.waitsFor, State.bank_setBank, hc]
  | counted b =>
    refine hs.congr (fun c n => ?_) fun n => by simp
    by_cases hc : c = b
    · subst hc; simp [State.waitsFor]
    · simp [State.waitsFor, State.bank_setBank, hc]
  | recovEnded b _ hk =>
    refine hs.ended hk (by simp) ?_ (by simp) fun k hne => ?_
    · simp [State.bank_setBank]
    · simp [State.node_setNode, hne]
  | recovered b _ hk =>
    refine hs.ended hk (by simp) ?_ ?_ fun k hne => ?_
    · simp [State.bank_setBank]
    · rw [State.node_setBank, State.node_idleTransmits, if_pos rfl, State.node_setNode_same]
    · simp [State.node_idleTransmits, State.node_setNode, hne]
  | reset => exact State.recovInv_of_none (fun b => by simp [Bank.reset]) fun n => by simp [NodeRegs.reset]
  | lockSet | rxIgnored => exact hs.congr (fun b n => by simp [State.waitsFor]) fun n => by simp
  | txDone n | rxStored n | rxLost n | rxWake n | busError n | busOff n | idleSeq n =>
    refine hs.congr (fun b k => by simp [State.waitsFor]) fun k => ?_
    by_cases hk : k = n
    · subst hk; simp_all
    · simp [State.node_setNode, State.node_setMoBusy, State.node_storeFrame, hk]

/-! ### The fault entry: R304, R305 -/

@[simp] theorem State.faulted_busy (s : State) (c : FaultCause) (b : BankId) :
    ((s.faulted c).bank b).busy = false := by
  rw [State.faulted_bank]
  split
  · rfl
  · next hb => split <;> simpa using hb

/-- After a fault entry no bank waits. -/
theorem State.faulted_waitKind (hs : ∀ b, (s.bank b).Inv) (c : FaultCause) (b : BankId) :
    ((s.faulted c).bank b).waitKind = .none := by
  rw [State.faulted_bank]
  split
  · rfl
  · next hb =>
    have hk := (hs b).waitKind_eq (by simpa using hb)
    split <;> exact hk

/-- A fault entry ends every recovery. -/
theorem State.faulted_recovering (hb : ∀ b, (s.bank b).Inv) (hs : s.RecovInv) (c : FaultCause) (n : NodeId) :
    ((s.faulted c).node n).recovering = false := by
  rw [State.faulted_node]
  split
  · rfl
  · next hno =>
    by_contra hr
    obtain ⟨-, hone⟩ := (hs n).1 (by simpa using hr)
    have hbusy : ∀ b, s.waitsFor b n = true → (s.bank b).busy = true ∧ (s.bank b).waitKind = .recov ∧
        n = (s.bank b).waitNode := fun b hw => by
      obtain ⟨hk, hn⟩ := (State.waitsFor_iff s b n).mp hw
      exact ⟨(hb b).1.mpr (by simp [hk]), hk, hn.symm⟩
    refine hno ?_
    cases h0 : s.waitsFor .fg n
    · exact .inr (hbusy .irq (by simpa [h0] using hone))
    · exact .inl (hbusy .fg h0)

/-- A fault entry changes no register of a node but `RECOVERING`. -/
theorem State.faulted_node_eq (s : State) (c : FaultCause) (n : NodeId) :
    (s.faulted c).node n = { s.node n with recovering := ((s.faulted c).node n).recovering } := by
  rw [State.faulted_node]
  split <;> rfl

theorem State.Inv.faulted (h : s.Inv) (c : FaultCause) : (s.faulted c).Inv := by
  have hb := s.bankInv_iff.mp h.bank
  have hn := s.faulted_node_eq c
  have hgood : ∀ n : NodeId, ((s.faulted c).node n).Good (s.faulted c).params := fun n => by
    rw [hn n, State.faulted_params]
    exact { s.good_iff.mpr ⟨h.latch, h.fill, h.node⟩ n with }
  obtain ⟨hlatch, hfill, hnode⟩ := (s.faulted c).good_iff.mp hgood
  have hkind := State.faulted_waitKind hb c
  exact {
    params := by simpa using h.params
    mem := State.mbx_wf_of_eq (by simp) h.mem
    bank := (State.bankInv_iff _).mpr fun b => Bank.inv_of_free (s.faulted_busy c b) (hkind b)
    prot := by simpa [State.ProtInv] using h.prot
    clock := h.clock.congr (by simp [State.sameClock])
    latch := hlatch
    pool := h.pool.congr (by simp) (fun k => by rw [hn k]; exact ⟨rfl, rfl, rfl⟩) (by simp)
    fill := hfill
    recov := State.recovInv_of_none (fun b => by simp [hkind b]) (State.faulted_recovering hb h.recov c)
    node := hnode
    unused := fun k hk => by
      rw [hn k, State.faulted_recovering hb h.recov c k, h.unused k (by simpa using hk)]; rfl
    fault := fun _ => ⟨s.faulted_busy c .fg, s.faulted_busy c .irq⟩ }

/-! ### Every step -/

/-- The registers of the block but for its banks agree, the mailbox memory and the parameters too. -/
def State.sameButBanks (s t : State) : Prop :=
  t.params = s.params ∧ t.nodes = s.nodes ∧ t.mbx = s.mbx ∧ t.prot = s.prot ∧ t.faultReg = s.faultReg ∧ s.sameClock t

theorem State.sameButBanks.nodes (h : s.sameButBanks t) : t.nodes = s.nodes := h.2.1

theorem State.sameButBanks.prot (h : s.sameButBanks t) : t.prot = s.prot := by
  obtain ⟨-, -, -, hprot, -⟩ := h
  exact hprot

theorem State.sameButBanks.faultReg (h : s.sameButBanks t) : t.faultReg = s.faultReg := by
  obtain ⟨-, -, -, -, hfault, -⟩ := h
  exact hfault

theorem State.sameButBanks.pllstat (h : s.sameButBanks t) : t.pllstat = s.pllstat := by
  obtain ⟨-, -, -, -, -, hpll, -⟩ := h
  exact hpll

theorem State.sameButBanks.clken (h : s.sameButBanks t) : t.clken = s.clken := by
  obtain ⟨-, -, -, -, -, -, -, -, -, hclken, -⟩ := h
  exact hclken

/-- The wait bookkeeping of a bank (R26, R27) is as before. -/
structure Bank.SameWait (bk bk' : Bank) : Prop where
  busy : bk'.busy = bk.busy
  kind : bk'.waitKind = bk.waitKind
  node : bk'.waitNode = bk.waitNode
  inWait : bk.busy = true → bk'.code = bk.code ∧ bk'.waitCnt = bk.waitCnt ∧ bk'.waitLim = bk.waitLim

theorem Bank.SameWait.refl (bk : Bank) : bk.SameWait bk := ⟨rfl, rfl, rfl, fun _ => ⟨rfl, rfl, rfl⟩⟩

theorem Bank.Inv.of_sameWait {bk bk' : Bank} (h : bk.Inv) (hw : bk.SameWait bk') : bk'.Inv := by
  obtain ⟨hbusy, hkind, -, hsame⟩ := hw
  rw [Bank.Inv, hbusy, hkind]
  refine ⟨h.1, fun hb => ?_⟩
  obtain ⟨hcode, hcnt, hlim⟩ := hsame hb
  rw [hcode, hcnt, hlim]
  exact h.2 hb

/-- What port accesses, the issue of a command and its return with a code do: only the banks change, and no wait. -/
theorem State.Inv.of_sameWait (h : s.Inv) (hrest : s.sameButBanks t) (hb : ∀ b, (s.bank b).SameWait (t.bank b)) :
    t.Inv := by
  obtain ⟨hparams, hnodes, hmbx, hprot, hfault, hclock⟩ := hrest
  have hnode : ∀ n, t.node n = s.node n := fun n => State.node_congr n hnodes
  obtain ⟨hlatch, hfill, hn⟩ := t.good_iff.mp fun n => by
    rw [hnode, hparams]; exact s.good_iff.mpr ⟨h.latch, h.fill, h.node⟩ n
  exact {
    params := hparams ▸ h.params
    mem := State.mbx_wf_of_eq hmbx h.mem
    bank := t.bankInv_iff.mpr fun b => (s.bankInv_iff.mp h.bank b).of_sameWait (hb b)
    prot := by rw [State.ProtInv, hprot]; exact h.prot
    clock := h.clock.congr hclock
    latch := hlatch
    pool := h.pool.of_nodes hparams hnodes hmbx
    fill := hfill
    recov := h.recov.congr (fun b n => by simp only [State.waitsFor, (hb b).kind, (hb b).node]) fun n => by simp [hnode]
    node := hn
    unused := fun n hk => (hnode n).trans (h.unused n (hparams ▸ hk))
    fault := fun hf => by
      obtain ⟨h0, h1⟩ := h.fault (hfault ▸ hf)
      exact ⟨(hb .fg).busy.trans h0, (hb .irq).busy.trans h1⟩ }

/-- A write of a bank that leaves its wait as it was. -/
theorem State.Inv.setBank (h : s.Inv) {b : BankId} {bk : Bank} (hw : (s.bank b).SameWait bk) : (s.setBank b bk).Inv := by
  refine h.of_sameWait (by simp [State.sameButBanks, State.sameClock]) fun c => ?_
  rw [State.bank_setBank]
  split
  · next hc => exact hc ▸ hw
  · exact .refl _

theorem State.Inv.moved (h : s.Inv) (rest : List Input) : (s.moved rest).Inv :=
  h.of_sameWait (by simp [State.sameButBanks, State.sameClock]) fun b => by simpa using .refl _

theorem State.Inv.issued (h : s.Inv) (b : BankId) (w : Word) (rest : List Input) : (s.issued b w rest).Inv := by
  have hset : ((s.moved rest).setBank b { s.bank b with cmd := w }).Inv :=
    (h.moved rest).setBank (by simpa using ⟨rfl, rfl, rfl, fun _ => ⟨rfl, rfl, rfl⟩⟩)
  exact hset.of_sameWait (by simp [State.sameButBanks, State.sameClock]) fun c => .refl _

theorem State.Inv.coded (h : s.Inv) (hb : s.cur.busy = false) (c : ResultCode) : (s.coded c).Inv :=
  h.setBank ⟨rfl, rfl, rfl, fun hc => absurd (hb.symm.trans hc) (by decide)⟩

theorem State.Succeeds.params_eq {i : Instr} (h : s.Succeeds i t) : t.params = s.params := by
  cases h <;> simp

theorem State.EventTo.params_eq {a : Input} (h : s.EventTo a t) : t.params = s.params := by
  cases h <;> simp [State.resetBlock, State.resetWith]

/-- A command that succeeds on a free bank keeps the invariant. -/
theorem State.Succeeds.inv {i : Instr} (h : s.Succeeds i t) (hs : s.Inv) (hb : s.cur.busy = false)
    (hf : s.faultReg = none) (hi : ∀ n, i.node = some n → n.val < s.params.nNode) : t.Inv := by
  have hbank := s.bankInv_iff.mp hs.bank
  have hkind := (hbank s.issuer).waitKind_eq hb
  obtain ⟨hlatch, hfill, hnode⟩ := t.good_iff.mp
    (h.params_eq ▸ h.good hs.params (s.good_iff.mpr ⟨hs.latch, hs.fill, hs.node⟩))
  exact {
    params := h.params_eq ▸ hs.params
    mem := h.mbx_wf hs.mem
    bank := t.bankInv_iff.mpr (h.bankInv hb hbank)
    prot := h.protInv hs.prot
    clock := h.clockInv hs.clock
    latch := hlatch
    pool := h.poolInv (nMbx_le_of_wf hs.params) (dlcMax_le_of_wf hs.params) hs.mem hs.pool
    fill := hfill
    recov := h.recovInv hkind hs.recov
    node := hnode
    unused := h.unusedInv hi h.params_eq hs.unused
    fault := fun hne => absurd (h.faultReg_eq.trans hf) hne }

theorem State.EventTo.inv {a : Input} (h : s.EventTo a t) (hs : s.Inv) : t.Inv := by
  obtain ⟨hlatch, hfill, hnode⟩ := t.good_iff.mp
    (h.params_eq ▸ h.good hs.params (s.good_iff.mpr ⟨hs.latch, hs.fill, hs.node⟩))
  exact {
    params := h.params_eq ▸ hs.params
    mem := h.mbx_wf hs.mem
    bank := t.bankInv_iff.mpr (h.bankInv (s.bankInv_iff.mp hs.bank))
    prot := h.protInv hs.prot
    clock := h.clockInv hs.clock
    latch := hlatch
    pool := h.poolInv (nMbx_le_of_wf hs.params) (dlcMax_le_of_wf hs.params) hs.mem hs.pool
    fill := hfill
    recov := h.recovInv hs.recov
    node := hnode
    unused := h.unusedInv hs.recov h.params_eq hs.unused
    fault := h.faultInv hs.fault }

theorem State.StepTo.inv (h : s.StepTo t) (hs : s.Inv) : t.Inv := by
  cases h with
  | idle => exact hs
  | read a rest | ignored a rest =>
    exact (hs.moved rest).of_sameWait (by simp [State.sameButBanks, State.sameClock]) fun b => by simpa using .refl _
  | operand a rest =>
    exact (hs.moved rest).setBank (by simpa using ⟨rfl, rfl, rfl, fun _ => ⟨rfl, rfl, rfl⟩⟩)
  | latched a rest _ _ b w _ hb =>
    exact (hs.moved rest).setBank (by simpa using ⟨rfl, rfl, rfl, fun hc => absurd (hb.symm.trans hc) (by decide)⟩)
  | illegal a rest _ _ b w _ hb => exact (hs.issued b w rest).faulted _
  | command a rest _ _ b w _ hb hf i hd _ t ht =>
    have hi := hs.issued b w rest
    have hcur : (s.issued b w rest).cur.busy = false := by simp [hb]
    rcases exec_cases ht with ⟨c, rfl⟩ | ⟨c, -, rfl⟩ | hq
    · exact hi.faulted c
    · exact hi.coded hcur c
    · exact hq.inv hi hcur (by simpa) fun n hn => by simpa using decode_node_lt hd hn
  | event a rest _ _ t ht => exact ht.inv (hs.moved rest)

/-- Settles O46: a case analysis of the step, each clause of the invariant by its own lemma. -/
theorem stateInvariantKeptByEveryStep : Obligations.StateInvariantKeptByEveryStep :=
  fun _ _ hs ht => (step_to ht).inv hs

/-! ### Reset -/

theorem State.resetWith_inv {p : Params} (hp : p.wf) : (State.resetWith p).Inv := by
  have hn := State.node_resetWith p
  obtain ⟨hlatch, hfill, hnode⟩ := (State.resetWith p).good_iff.mp fun n => hn n ▸ NodeRegs.good_reset p
  exact {
    params := hp
    mem := ⟨List.Pairwise.nil, by simp [State.resetWith]⟩
    bank := (State.bankInv_iff _).mpr fun b => (State.bank_resetWith p b).symm ▸ Bank.inv_of_free rfl rfl
    prot := ⟨rfl, fun _ => rfl⟩
    clock := by simp [State.ClockInv, State.resetWith]
    latch := hlatch
    pool := State.resetWith_poolInv p
    fill := hfill
    recov := State.recovInv_of_none (fun b => by simp [Bank.reset]) fun n => by rw [hn n]; rfl
    node := hnode
    unused := fun n _ => hn n
    fault := fun h => absurd rfl h }

/-- The default parameters keep R9, whatever the open ones are (R8). -/
theorem Config.defaults_wf : Config.defaults.wf := by decide

/-- Settles O47: every register is 0 at reset. -/
theorem resetMeetsTheStateInvariant : Obligations.ResetMeetsTheStateInvariant :=
  ⟨State.resetWith_inv Config.defaults_wf, State.reset_mbx_wf, fun _ => State.resetWith_inv⟩

end Sys2Proof.Machine
end

section
/-! PROOFS. A wait ends within its bound (70_reset_and_hazards.md R360, 10_state.md R27): each poll step counts one up, and
nothing else touches the counter or the bound of a busy bank. -/

namespace Sys2Proof.Machine

variable {s t : State}

/-- The poll steps of bank `b` among the next `k` inputs. -/
abbrev State.pollsWithin (s : State) (b : BankId) (k : Nat) : Nat := (s.schedule.take k).count (.waitStep b)

theorem State.pollsWithin_succ (s : State) {a : Input} {rest : List Input} (h : s.schedule = a :: rest) (b : BankId)
    (k : Nat) : s.pollsWithin b (k + 1) = s.pollsWithin b 1 + (rest.take k).count (.waitStep b) := by
  simp [State.pollsWithin, h, List.count_cons, Nat.add_comm]

/-- `t` continues the wait of bank `b` from `s` after `n` polls: same bound, the counter `n` higher and within the bound. -/
structure State.WaitContinues (s t : State) (b : BankId) (n : Nat) : Prop where
  lim : (t.bank b).waitLim = (s.bank b).waitLim
  cnt : (t.bank b).waitCnt.toNat = (s.bank b).waitCnt.toNat + n
  le : (t.bank b).waitCnt ≤ (t.bank b).waitLim

variable {b : BankId}

/-- A step without a poll that keeps the bank's counter and bound. -/
theorem State.WaitContinues.of_same (hle : (s.bank b).waitCnt ≤ (s.bank b).waitLim)
    (hc : (t.bank b).waitCnt = (s.bank b).waitCnt) (hl : (t.bank b).waitLim = (s.bank b).waitLim) :
    s.WaitContinues t b 0 :=
  ⟨hl, by rw [hc]; rfl, by rw [hc, hl]; exact hle⟩

/-- An event on a busy bank that stays busy: a poll of it counts, every other event leaves its counter and bound alone. -/
theorem State.EventTo.waitContinues {a : Input} (h : s.EventTo a t) (ht : (t.bank b).busy = true)
    (hle : (s.bank b).waitCnt ≤ (s.bank b).waitLim) : s.WaitContinues t b ([a].count (.waitStep b)) := by
  cases h with
  | ended c | locked c | lockTimeout c | recovEnded c | recovered c =>
    have hne : b ≠ c := by rintro rfl; simp at ht
    have hcount : [Input.waitStep c].count (.waitStep b) = 0 := by simp [Ne.symm hne]
    rw [hcount]
    exact .of_same hle (by simp [State.bank_setBank, hne]) (by simp [State.bank_setBank, hne])
  | counted c _ _ hc =>
    by_cases he : b = c
    · subst he
      have hlt : (s.bank b).waitCnt.toNat + 1 ≤ (s.bank b).waitLim.toNat := by bv_omega
      rw [List.count_singleton_self]
      refine ⟨by simp, ?_, ?_⟩ <;> rw [State.bank_setBank_same]
      · show ((s.bank b).waitCnt + 1).toNat = _
        bv_omega
      · show (s.bank b).waitCnt + 1 ≤ (s.bank b).waitLim
        bv_omega
    · have hcount : [Input.waitStep c].count (.waitStep b) = 0 := by simp [Ne.symm he]
      rw [hcount]
      exact .of_same hle (by simp [State.bank_setBank, he]) (by simp [State.bank_setBank, he])
  | reset => simp [Bank.reset] at ht
  | _ => exact .of_same hle (by simp) (by simp)

/-- A bank that is busy before and after a step continues its wait. -/
theorem State.StepTo.waitContinues (h : s.StepTo t) (hb : (s.bank b).busy = true) (ht : (t.bank b).busy = true)
    (hle : (s.bank b).waitCnt ≤ (s.bank b).waitLim) : s.WaitContinues t b (s.pollsWithin b 1) := by
  have noPoll : ∀ {a rest}, s.schedule = a :: rest → a.isEvent = false → s.pollsWithin b 1 = 0 := fun {a _} hs ha => by
    have hne : a ≠ .waitStep b := by rintro rfl; cases ha
    simp [State.pollsWithin, hs, hne]
  have busyNe : ∀ {c}, (s.bank c).busy = false → b ≠ c := fun hc he => by simp [← he, hb] at hc
  cases h with
  | idle hs => simpa [State.pollsWithin, hs] using State.WaitContinues.of_same (s := s) hle rfl rfl
  | read a rest hs ha | ignored a rest hs ha =>
    rw [noPoll hs ha]
    exact .of_same hle (by simp) (by simp)
  | operand a rest hs ha _ c =>
    rw [noPoll hs ha]
    by_cases he : b = c
    · subst he; exact .of_same hle (by simp) (by simp)
    · exact .of_same hle (by simp [State.bank_setBank, he]) (by simp [State.bank_setBank, he])
  | latched a rest hs ha c w _ hc =>
    rw [noPoll hs ha]
    exact .of_same hle (by simp [State.bank_setBank, busyNe hc]) (by simp [State.bank_setBank, busyNe hc])
  | illegal => simp [State.faulted_busy] at ht
  | command a rest hs ha c w _ hc _ i _ _ t hexec =>
    have hbank : (s.issued c w rest).bank b = s.bank b := by
      rw [State.bank_takeCommand_other _ (busyNe hc), State.bank_moved]
    rw [noPoll hs ha]
    rcases exec_cases hexec with ⟨d, rfl⟩ | ⟨d, -, rfl⟩ | hq
    · simp [State.faulted_busy] at ht
    · have ht' : ((s.issued c w rest).coded d).bank b = s.bank b := by
        rw [State.coded_bank, State.takeCommand_issuer, if_neg (busyNe hc), hbank]
      exact .of_same hle (by rw [ht']) (by rw [ht'])
    · have ht' : t.bank b = s.bank b := (hq.bank_other (busyNe hc)).trans hbank
      exact .of_same hle (by rw [ht']) (by rw [ht'])
  | event a rest hs _ t he =>
    obtain ⟨hl, hc, hle'⟩ := he.waitContinues ht (by simpa using hle)
    have hcount : s.pollsWithin b 1 = [a].count (.waitStep b) := by simp [State.pollsWithin, hs]
    rw [hcount]
    exact ⟨by simpa using hl, by simpa using hc, hle'⟩

/-- A bank that is busy all along a run continues its wait. -/
theorem waitContinues_run (k : Nat) : ∀ s : State, (s.bank b).busy = true →
    (s.bank b).waitCnt ≤ (s.bank b).waitLim → Host.Core.run core k s = .next t →
    (∀ j ≤ k, ∀ u, Host.Core.run core j s = .next u → (u.bank b).busy = true) →
    s.WaitContinues t b (s.pollsWithin b k) := by
  induction k with
  | zero =>
    intro s _ hle hrun _
    injection hrun with hrun
    subst hrun
    exact .of_same hle rfl rfl
  | succ k ih =>
    intro s hb hle hrun hall
    obtain ⟨u, hstep, hrest⟩ := core_run_succ_next hrun
    have hub := hall 1 (by omega) u (core_run_succ 0 hstep)
    have hone := (step_to hstep).waitContinues hb hub hle
    have hmore := ih u hub hone.le hrest fun j hj v hv => hall (j + 1) (by omega) v ((core_run_succ j hstep).trans hv)
    have hpolls : s.pollsWithin b (k + 1) = s.pollsWithin b 1 + u.pollsWithin b k := by
      have hsched := (step_to hstep).schedule_eq
      cases hs : s.schedule with
      | nil => simp [State.pollsWithin, hsched, hs]
      | cons a rest => rw [s.pollsWithin_succ hs, State.pollsWithin, State.pollsWithin, hsched, hs, List.tail_cons]
    refine ⟨hmore.lim.trans hone.lim, ?_, hmore.le⟩
    rw [hmore.cnt, hone.cnt, hpolls, Nat.add_assoc]

/-- Settles O58, by induction on the run: the counter rises by one with each poll and stays within the bound. -/
theorem waitsEndWithinTheirBound : Obligations.WaitsEndWithinTheirBound := by
  intro s t b k hb hle hrun hall
  obtain ⟨hlim, hcnt, hle'⟩ := waitContinues_run k s hb hle hrun hall
  refine ⟨?_, hlim, hcnt⟩
  change s.pollsWithin b k ≤ _
  rw [BitVec.le_def, hlim] at hle'
  omega

end Sys2Proof.Machine
end

section
/-! PROOFS. What sets and what clears each status flag (10_state.md R55). -/

namespace Sys2Proof.Machine

variable {s t : State}

/-! ### The moves of a flag -/

/-- A flag that goes from `x` to `y` rises only if `set` holds and falls only if `clear` holds. -/
structure FlagMoves (x y : Bool) (set clear : Prop) : Prop where
  rise : x = false → y = true → set
  fall : x = true → y = false → clear

variable {x y : Bool} {p p' q q' : Prop}

@[simp] theorem FlagMoves.self : FlagMoves x x p q :=
  ⟨fun h0 h1 => by simp [h0] at h1, fun h1 h0 => by simp [h1] at h0⟩

theorem FlagMoves.of_eq (h : y = x) : FlagMoves x y p q := h ▸ .self

theorem FlagMoves.of_rise (hy : y = true) (hp : p) : FlagMoves x y p q :=
  ⟨fun _ _ => hp, fun _ h => by simp [hy] at h⟩

theorem FlagMoves.of_fall (hy : y = false) (hq : q) : FlagMoves x y p q :=
  ⟨fun _ h => by simp [hy] at h, fun _ _ => hq⟩

theorem FlagMoves.mono (h : FlagMoves x y p q) (hp : p → p') (hq : q → q') : FlagMoves x y p' q' :=
  ⟨fun h0 h1 => hp (h.rise h0 h1), fun h1 h0 => hq (h.fall h1 h0)⟩

/-! ### The four kinds of steps -/

/-- What a step does to the flags: nothing outside the waits of the banks, a fault entry, a command that succeeds, or a
hardware event. -/
inductive State.Effect (s : State) : State → Prop where
  /-- no step, a port access that runs no command, or a command that returns an error code -/
  | quiet (t : State) (h : s.sameButBanks t) (hb : ∀ b, (t.bank b).busy = (s.bank b).busy) : Effect s t
  | fault (b : BankId) (w : Word) (rest : List Input) (c : FaultCause) (hc : s.nextCommand = some (b, w))
      (hb : (s.bank b).busy = false) (hf : s.faultReg = none) : Effect s ((s.issued b w rest).faulted c)
  | success (b : BankId) (w : Word) (rest : List Input) (i : Instr) (hi : s.nextInstr = some (b, i))
      (hb : (s.bank b).busy = false) (hf : s.faultReg = none) (t : State) (h : (s.issued b w rest).Succeeds i t) :
      Effect s t
  | event (a : Input) (rest : List Input) (ha : s.inputIs a) (t : State) (h : (s.moved rest).EventTo a t) : Effect s t

theorem State.sameButBanks_issued (s : State) (b : BankId) (w : Word) (rest : List Input) :
    s.sameButBanks (s.issued b w rest) := by
  simp [State.sameButBanks, State.sameClock]

theorem State.StepTo.effect (h : s.StepTo t) : s.Effect t := by
  cases h with
  | idle => exact .quiet s (by simp [State.sameButBanks, State.sameClock]) fun _ => rfl
  | read a rest | ignored a rest =>
    exact .quiet _ (by simp [State.sameButBanks, State.sameClock]) fun b => by simp
  | operand a rest _ _ _ c | latched a rest _ _ c =>
    refine .quiet _ (by simp [State.sameButBanks, State.sameClock]) fun b => ?_
    by_cases he : b = c
    · subst he; simp
    · simp [State.bank_setBank, he]
  | illegal a rest _ _ b w hc hb hf => exact .fault b w rest _ hc hb hf
  | command a rest _ _ b w hc hb hf i _ hi t ht =>
    rcases exec_cases ht with ⟨c, rfl⟩ | ⟨c, -, rfl⟩ | hq
    · exact .fault b w rest c hc hb hf
    · refine .quiet _ (by simp [State.sameButBanks, State.sameClock]) fun d => ?_
      rw [State.coded_bank, State.takeCommand_issuer]
      by_cases he : d = b
      · simp [he]
      · rw [if_neg he, State.bank_takeCommand_other _ he, State.bank_moved]
    · exact .success b w rest i hi hb hf t hq
  | event a rest hs _ t ht => exact .event a rest (by rw [State.inputIs, hs, List.head?_cons]) t ht

theorem State.runsNext_of_nextInstr {b : BankId} {i : Instr} (h : s.nextInstr = some (b, i)) : s.runsNext i := by
  cases b
  · exact .inl h
  · exact .inr h

/-- A flag outside the banks: a fault entry, a command that succeeds or an event accounts for its move. -/
theorem State.Effect.moves_of_cases (h : s.Effect t) {f : State → Bool}
    (hsame : ∀ {u v : State}, u.sameButBanks v → f v = f u)
    (hfault : ∀ b w rest c, t = (s.issued b w rest).faulted c → s.faultReg = none →
      FlagMoves (f (s.issued b w rest)) (f t) p q)
    (hcmd : ∀ b w rest i, (s.issued b w rest).Succeeds i t → s.runsNext i →
      FlagMoves (f (s.issued b w rest)) (f t) p q)
    (hevent : ∀ a rest, (s.moved rest).EventTo a t → s.inputIs a → FlagMoves (f (s.moved rest)) (f t) p q) :
    FlagMoves (f s) (f t) p q := by
  cases h with
  | quiet t hs => exact .of_eq (hsame hs)
  | fault b w rest c _ _ hf => exact hsame (s.sameButBanks_issued b w rest) ▸ hfault b w rest c rfl hf
  | success b w rest i hi _ _ t hq =>
    exact hsame (s.sameButBanks_issued b w rest) ▸ hcmd b w rest i hq (s.runsNext_of_nextInstr hi)
  | event a rest ha t he =>
    have hm : s.sameButBanks (s.moved rest) := by simp [State.sameButBanks, State.sameClock]
    exact hsame hm ▸ hevent a rest he ha

/-- A flag that no fault entry writes. -/
theorem State.Effect.moves (h : s.Effect t) {f : State → Bool} (hsame : ∀ {u v : State}, u.sameButBanks v → f v = f u)
    (hfault : ∀ (u : State) (c : FaultCause), f (u.faulted c) = f u)
    (hcmd : ∀ b w rest i, (s.issued b w rest).Succeeds i t → s.runsNext i →
      FlagMoves (f (s.issued b w rest)) (f t) p q)
    (hevent : ∀ a rest, (s.moved rest).EventTo a t → s.inputIs a → FlagMoves (f (s.moved rest)) (f t) p q) :
    FlagMoves (f s) (f t) p q :=
  h.moves_of_cases hsame (fun b w rest c ht _ => .of_eq (by rw [ht]; exact hfault _ c)) hcmd hevent

/-- A flag that no event but reset writes, and that reset clears. -/
theorem State.EventTo.moves_of_eq {a : Input} (h : s.EventTo a t) {f : State → Bool} (he : a ≠ .reset → f t = f s)
    (hr : ∀ u : State, f u.resetBlock = false) : FlagMoves (f s) (f t) False (a = .reset) := by
  by_cases ha : a = .reset
  · subst ha; cases h; exact .of_fall (hr s) rfl
  · exact .of_eq (he ha)

/-! ### The guard -/

theorem State.Succeeds.held_moves {i : Instr} (h : s.Succeeds i t) :
    FlagMoves s.prot.held t.prot.held (i = .guardAcq) (i = .guardRel) := by
  cases h with
  | guardAcq => exact .of_rise (by simp) rfl
  | guardRel => exact .of_fall (by simp) rfl
  | clkConfigure _ _ _ _ _ _ _ _ _ _ _ hp | clkReinit _ hp | nodeConfigure _ _ _ _ _ _ hp => exact .of_eq (by simp [hp])
  | _ => simp

theorem State.Succeeds.unlocked_moves {i : Instr} (h : s.Succeeds i t) :
    FlagMoves s.prot.unlocked t.prot.unlocked (i = .guardAcq)
      (i = .guardRel ∨ s.prot.held = false ∧ (i = .clkConfigure ∨ i = .clkReinit ∨ ∃ n, i = .nodeConfigure n)) := by
  cases h with
  | guardAcq => exact .of_rise (by simp) rfl
  | guardRel => exact .of_fall (by simp) (.inl rfl)
  | clkConfigure _ _ _ _ _ _ _ _ _ _ _ hp | clkReinit _ hp | nodeConfigure _ _ _ _ _ _ hp =>
    exact .of_fall (by simp) (.inr ⟨hp, by simp⟩)
  | _ => simp

theorem State.EventTo.prot_eq {a : Input} (h : s.EventTo a t) (ha : a ≠ .reset) : t.prot = s.prot := by
  cases h with
  | reset => exact absurd rfl ha
  | _ => simp

theorem State.Effect.held_moves (h : s.Effect t) :
    FlagMoves s.prot.held t.prot.held (s.runsNext .guardAcq) (s.runsNext .guardRel ∨ s.inputIs .reset) :=
  h.moves (f := fun u => u.prot.held) (fun hs => by rw [hs.prot]) (fun u c => by simp)
    (fun b w rest i hq hi => hq.held_moves.mono (fun e => e ▸ hi) fun e => .inl (e ▸ hi))
    (fun a rest he ha => (he.moves_of_eq (f := fun u => u.prot.held) (fun hne => by rw [he.prot_eq hne])
      fun _ => rfl).mono False.elim fun e => .inr (e ▸ ha))

theorem State.Effect.unlocked_moves (h : s.Effect t) :
    FlagMoves s.prot.unlocked t.prot.unlocked (s.runsNext .guardAcq)
      (s.runsNext .guardRel ∨ (s.prot.held = false ∧
        (s.runsNext .clkConfigure ∨ s.runsNext .clkReinit ∨ ∃ n, s.runsNext (.nodeConfigure n))) ∨
        s.inputIs .reset) := by
  refine h.moves (f := fun u => u.prot.unlocked) (fun hs => by rw [hs.prot]) (fun u c => by simp)
    (fun b w rest i hq hi => hq.unlocked_moves.mono (fun e => e ▸ hi) fun e => ?_)
    (fun a rest he ha => (he.moves_of_eq (f := fun u => u.prot.unlocked) (fun hne => by rw [he.prot_eq hne])
      fun _ => rfl).mono False.elim fun e => .inr (.inr (e ▸ ha)))
  rcases e with rfl | ⟨hp, rfl | rfl | ⟨n, rfl⟩⟩
  · exact .inl hi
  · exact .inr (.inl ⟨by simpa using hp, .inl hi⟩)
  · exact .inr (.inl ⟨by simpa using hp, .inr (.inl hi)⟩)
  · exact .inr (.inl ⟨by simpa using hp, .inr (.inr ⟨n, hi⟩)⟩)

/-! ### The clock -/

theorem State.Succeeds.lockBit_moves {i : Instr} (h : s.Succeeds i t) :
    FlagMoves s.pllstat.lockBit t.pllstat.lockBit False (i = .clkConfigure ∨ i = .clkReinit) := by
  cases h with
  | clkConfigure => exact .of_fall (by simp [State.applyClock]) (.inl rfl)
  | clkReinit => exact .of_fall (by simp) (.inr rfl)
  | _ => simp

theorem State.Succeeds.oscRun_moves {i : Instr} (h : s.Succeeds i t) :
    FlagMoves s.pllstat.oscRun t.pllstat.oscRun (i = .clkConfigure) (i = .clkReinit) := by
  cases h with
  | clkConfigure => exact .of_rise (by simp [State.applyClock]) rfl
  | clkReinit => exact .of_fall (by simp) rfl
  | _ => simp

/-- Enabling a domain enables no other and disables none (R149). -/
theorem ClkEn.enable_moves (e : ClkEn) (d d' : Domain) : FlagMoves (e.get d) ((e.enable d').get d) True False := by
  by_cases h : d = d'
  · subst h; cases d <;> exact .of_rise rfl trivial
  · refine .of_eq ?_
    cases d <;> cases d' <;> simp_all [ClkEn.enable, ClkEn.get]

theorem State.Succeeds.clken_moves {i : Instr} (h : s.Succeeds i t) (d : Domain) :
    FlagMoves (s.clken.get d) (t.clken.get d) (i = .clkDomainEnable) False := by
  cases h with
  | clkDomainEnable d' =>
    rw [State.coded_clken, State.setClken_clken]
    exact (s.clken.enable_moves d d').mono (fun _ => rfl) id
  | _ => simp

theorem State.EventTo.lockBit_moves {a : Input} (h : s.EventTo a t) :
    FlagMoves s.pllstat.lockBit t.pllstat.lockBit (a = .lockSet) (a = .reset) := by
  cases h with
  | lockSet => exact .of_rise (by simp) rfl
  | reset => exact .of_fall rfl rfl
  | _ => simp

theorem State.EventTo.oscRun_eq {a : Input} (h : s.EventTo a t) (ha : a ≠ .reset) :
    t.pllstat.oscRun = s.pllstat.oscRun := by
  cases h with
  | reset => exact absurd rfl ha
  | _ => simp

theorem State.EventTo.clken_eq {a : Input} (h : s.EventTo a t) (ha : a ≠ .reset) : t.clken = s.clken := by
  cases h with
  | reset => exact absurd rfl ha
  | _ => simp

theorem State.Effect.lockBit_moves (h : s.Effect t) :
    FlagMoves s.pllstat.lockBit t.pllstat.lockBit (s.inputIs .lockSet)
      (s.runsNext .clkConfigure ∨ s.runsNext .clkReinit ∨ s.inputIs .reset) :=
  h.moves (f := fun u => u.pllstat.lockBit) (fun hs => by rw [hs.pllstat]) (fun u c => by simp)
    (fun b w rest i hq hi => hq.lockBit_moves.mono False.elim fun e => by
      rcases e with rfl | rfl
      · exact .inl hi
      · exact .inr (.inl hi))
    (fun a rest he ha => he.lockBit_moves.mono (fun e => e ▸ ha) fun e => .inr (.inr (e ▸ ha)))

theorem State.Effect.oscRun_moves (h : s.Effect t) :
    FlagMoves s.pllstat.oscRun t.pllstat.oscRun (s.runsNext .clkConfigure)
      (s.runsNext .clkReinit ∨ s.inputIs .reset) :=
  h.moves (f := fun u => u.pllstat.oscRun) (fun hs => by rw [hs.pllstat]) (fun u c => by simp)
    (fun b w rest i hq hi => hq.oscRun_moves.mono (fun e => e ▸ hi) fun e => .inl (e ▸ hi))
    (fun a rest he ha => (he.moves_of_eq (f := fun u => u.pllstat.oscRun) he.oscRun_eq fun _ => rfl).mono
      False.elim fun e => .inr (e ▸ ha))

theorem State.Effect.clken_moves (h : s.Effect t) (d : Domain) :
    FlagMoves (s.clken.get d) (t.clken.get d) (s.runsNext .clkDomainEnable) (s.inputIs .reset) :=
  h.moves (f := fun u => u.clken.get d) (fun hs => by rw [hs.clken]) (fun u c => by simp)
    (fun b w rest i hq hi => (hq.clken_moves d).mono (fun e => e ▸ hi) False.elim)
    (fun a rest he ha => (he.moves_of_eq (f := fun u => u.clken.get d) (fun hne => by rw [he.clken_eq hne])
      fun _ => by cases d <;> rfl).mono False.elim fun e => e ▸ ha)

/-! ### The fault latch and the banks -/

theorem State.EventTo.faultReg_eq {a : Input} (h : s.EventTo a t) (ha : a ≠ .reset) : t.faultReg = s.faultReg := by
  cases h with
  | reset => exact absurd rfl ha
  | _ => simp

/-- The latch is set by a fault entry of a command word on a free bank, which it records (R304). -/
theorem State.Effect.faultReg_set (h : s.Effect t) (hs : s.faultReg = none) (ht : t.faultReg ≠ none) :
    ∃ b w cause, s.nextCommand = some (b, w) ∧ (s.bank b).busy = false ∧
      t.faultReg = some ⟨cause, w.extractLsb' 0 8, w.extractLsb' 8 4, b⟩ := by
  cases h with
  | quiet t h => exact absurd (h.faultReg.trans hs) ht
  | fault b w rest c hc hb => exact ⟨b, w, c, hc, hb, by simp⟩
  | success b w rest i _ _ hf t hq => exact absurd (hq.faultReg_eq.trans (by simpa using hf)) ht
  | event a rest _ t he =>
    by_cases ha : a = .reset
    · subst ha; cases he; exact absurd rfl ht
    · exact absurd ((he.faultReg_eq ha).trans (by simpa using hs)) ht

/-- The latch is cleared by reset alone (R306). -/
theorem State.Effect.faultReg_cleared (h : s.Effect t) (hs : s.faultReg ≠ none) (ht : t.faultReg = none) :
    s.inputIs .reset := by
  cases h with
  | quiet t h => exact absurd (h.faultReg.symm.trans ht) hs
  | fault b w rest c _ _ hf => exact absurd hf hs
  | success b w rest i _ _ hf => exact absurd hf hs
  | event a rest hin t he =>
    by_cases ha : a = .reset
    · exact ha ▸ hin
    · exact absurd ((State.moved_faultReg s rest).symm.trans ((he.faultReg_eq ha).symm.trans ht)) hs

theorem State.Succeeds.busy_moves {i : Instr} (h : s.Succeeds i t) :
    FlagMoves s.cur.busy t.cur.busy (i = .clkConfigure ∨ i = .clkWaitLock ∨ ∃ n, i = .nodeRecover n) False := by
  cases h
  case clkConfigure | clkWaitLock | nodeRecover => exact .of_rise (by simp) (by simp)
  all_goals simp

theorem State.EventTo.busy_moves {a : Input} (h : s.EventTo a t) (b : BankId) :
    FlagMoves (s.bank b).busy (t.bank b).busy False (a = .waitStep b ∨ a = .reset) := by
  cases h with
  | ended c | locked c | lockTimeout c | recovEnded c | recovered c =>
    by_cases hc : b = c
    · subst hc; exact .of_fall (by simp) (.inl rfl)
    · simp [State.bank_setBank, hc]
  | counted c =>
    by_cases hc : b = c
    · subst hc; simp
    · simp [State.bank_setBank, hc]
  | reset => exact .of_fall (by simp [Bank.reset]) (.inr rfl)
  | _ => simp

theorem State.Effect.busy_moves (h : s.Effect t) (b : BankId) :
    FlagMoves (s.bank b).busy (t.bank b).busy
      (s.nextInstr = some (b, .clkConfigure) ∨ s.nextInstr = some (b, .clkWaitLock) ∨
        ∃ n, s.nextInstr = some (b, .nodeRecover n))
      (s.inputIs (.waitStep b) ∨ (s.faultReg = none ∧ t.faultReg ≠ none) ∨ s.inputIs .reset) := by
  cases h with
  | quiet t _ hb => exact .of_eq (hb b)
  | fault c w rest d _ _ hf => exact .of_fall (by simp) (.inr (.inl ⟨hf, by simp⟩))
  | success c w rest i hi hb _ t hq =>
    by_cases hc : b = c
    · subst hc
      have hmove := hq.busy_moves
      rw [State.cur, State.cur, hq.issuer_eq, State.takeCommand_issuer, State.bank_takeCommand_same,
        State.bank_moved] at hmove
      refine hmove.mono (fun e => ?_) False.elim
      rcases e with rfl | rfl | ⟨n, rfl⟩
      · exact .inl hi
      · exact .inr (.inl hi)
      · exact .inr (.inr ⟨n, hi⟩)
    · refine .of_eq ?_
      rw [hq.bank_other hc, State.bank_takeCommand_other _ hc, State.bank_moved]
  | event a rest ha t he =>
    refine State.bank_moved s b rest ▸ (he.busy_moves b).mono False.elim fun e => ?_
    rcases e with rfl | rfl
    · exact .inl ha
    · exact .inr (.inr ha)

/-! ### The flags of a node -/

/-- A command moves a node's flag only if it names the node. -/
theorem State.Succeeds.node_moves {i : Instr} (h : s.Succeeds i t) {n : NodeId} {f : NodeRegs → Bool}
    (hn : i.node = some n → FlagMoves (f (s.node n)) (f (t.node n)) p q) :
    FlagMoves (f (s.node n)) (f (t.node n)) p q := by
  by_cases hk : i.node = some n
  · exact hn hk
  · exact .of_eq (by rw [h.node_eq hk])

theorem State.Succeeds.configured_moves {i : Instr} (h : s.Succeeds i t) (n : NodeId) :
    FlagMoves (s.node n).configured (t.node n).configured (i = .nodeConfigure n) False := by
  refine h.node_moves (f := NodeRegs.configured) fun hk => ?_
  cases h with
  | nodeConfigure => cases hk; exact .of_rise (by simp) rfl
  | _ => cases hk <;> simp [State.setBitmaps, State.node_releaseAll, State.node_storeFrame, State.node_setMoBusy]

theorem State.Succeeds.rxLost_moves {i : Instr} (h : s.Succeeds i t) (n : NodeId) :
    FlagMoves (s.node n).rxLost (t.node n).rxLost False (i = .nodeConfigure n) := by
  refine h.node_moves (f := NodeRegs.rxLost) fun hk => ?_
  cases h with
  | nodeConfigure => cases hk; exact .of_fall (by simp) rfl
  | _ => cases hk <;> simp [State.setBitmaps, State.node_releaseAll, State.node_storeFrame, State.node_setMoBusy]

theorem State.Succeeds.recovering_moves {i : Instr} (h : s.Succeeds i t) (n : NodeId) :
    FlagMoves (s.node n).recovering (t.node n).recovering (i = .nodeRecover n) False := by
  refine h.node_moves (f := NodeRegs.recovering) fun hk => ?_
  cases h with
  | nodeRecover => cases hk; exact .of_rise (by simp) rfl
  | _ => cases hk <;> simp [State.setBitmaps, State.node_releaseAll, State.node_storeFrame, State.node_setMoBusy]

/-- A write of one kind's bit. -/
theorem KindBits.set_moves (z : KindBits) (j k : EventKind) (v : Bool) :
    FlagMoves (z.get k) ((z.set j v).get k) (v = true) (v = false) := by
  rw [KindBits.get_set]
  split
  · exact ⟨fun _ h => h, fun _ h => h⟩
  · exact .self

theorem State.Succeeds.nie_moves {i : Instr} (h : s.Succeeds i t) (n : NodeId) (k : EventKind) :
    FlagMoves ((s.node n).nie.get k) ((t.node n).nie.get k) (i = .irqEnable n) (i = .irqDisable n) := by
  refine h.node_moves (f := fun r => r.nie.get k) fun hk => ?_
  cases h with
  | irqEnable n' j =>
    cases hk
    rw [State.coded_node, State.node_setNode_same]
    exact (KindBits.set_moves _ j k true).mono (fun _ => rfl) (by simp)
  | irqDisable n' j =>
    cases hk
    rw [State.coded_node, State.node_setNode_same]
    exact (KindBits.set_moves _ j k false).mono (by simp) fun _ => rfl
  | _ => cases hk <;> simp [State.setBitmaps, State.node_releaseAll, State.node_storeFrame, State.node_setMoBusy]

theorem State.Succeeds.nip_moves {i : Instr} (h : s.Succeeds i t) (n : NodeId) (k : EventKind) :
    FlagMoves ((s.node n).nip.get k) ((t.node n).nip.get k) False (i = .irqAck n ∨ i = .irqDisable n) := by
  refine h.node_moves (f := fun r => r.nip.get k) fun hk => ?_
  cases h with
  | irqAck n' j =>
    cases hk
    rw [State.coded_node, State.node_setNode_same]
    exact (KindBits.set_moves _ j k false).mono (by simp) fun _ => .inl rfl
  | irqDisable n' j =>
    cases hk
    rw [State.coded_node, State.node_setNode_same]
    exact (KindBits.set_moves _ j k false).mono (by simp) fun _ => .inr rfl
  | _ => cases hk <;> simp [State.setBitmaps, State.node_releaseAll, State.node_storeFrame, State.node_setMoBusy]

/-! A completed recovery keeps a node's flags outside `NBUSY`. -/

@[simp] theorem State.node_idleTransmits_configured (s : State) (n : NodeId) :
    ((s.idleTransmits n).node n).configured = (s.node n).configured := by rw [State.node_idleTransmits, if_pos rfl]

@[simp] theorem State.node_idleTransmits_rxLost (s : State) (n : NodeId) :
    ((s.idleTransmits n).node n).rxLost = (s.node n).rxLost := by rw [State.node_idleTransmits, if_pos rfl]

@[simp] theorem State.node_idleTransmits_recovering (s : State) (n : NodeId) :
    ((s.idleTransmits n).node n).recovering = (s.node n).recovering := by rw [State.node_idleTransmits, if_pos rfl]

@[simp] theorem State.node_idleTransmits_nie (s : State) (n : NodeId) :
    ((s.idleTransmits n).node n).nie = (s.node n).nie := by rw [State.node_idleTransmits, if_pos rfl]

@[simp] theorem State.node_idleTransmits_nip (s : State) (n : NodeId) :
    ((s.idleTransmits n).node n).nip = (s.node n).nip := by rw [State.node_idleTransmits, if_pos rfl]

/-- No event but reset configures a node or writes its enables. -/
theorem State.EventTo.configured_nie_eq {a : Input} (h : s.EventTo a t) (ha : a ≠ .reset) (n : NodeId) :
    (t.node n).configured = (s.node n).configured ∧ (t.node n).nie = (s.node n).nie := by
  by_cases hk : s.eventNode a = some n
  swap
  · simp [h.node_eq ha hk]
  cases h with
  | reset => exact absurd rfl ha
  | _ => simp_all [State.eventNode]

/-- An event moves a node's flag only if it concerns the node. -/
theorem State.EventTo.node_moves {a : Input} (h : s.EventTo a t) {n : NodeId} {f : NodeRegs → Bool}
    (hr : a = .reset → f NodeRegs.reset = false ∧ q)
    (hn : a ≠ .reset → s.eventNode a = some n → FlagMoves (f (s.node n)) (f (t.node n)) p q) :
    FlagMoves (f (s.node n)) (f (t.node n)) p q := by
  by_cases ha : a = .reset
  · obtain ⟨h0, hq⟩ := hr ha
    subst ha
    cases h
    exact .of_fall (by rw [State.node_resetBlock, h0]) hq
  by_cases hk : s.eventNode a = some n
  · exact hn ha hk
  · exact .of_eq (by rw [h.node_eq ha hk])

theorem State.EventTo.rxLost_moves {a : Input} (h : s.EventTo a t) (n : NodeId) :
    FlagMoves (s.node n).rxLost (t.node n).rxLost (∃ f, a = .rxFrame n f) (a = .reset) := by
  refine h.node_moves (f := NodeRegs.rxLost) (fun e => ⟨rfl, e⟩) fun ha hk => ?_
  cases h with
  | reset => exact absurd rfl ha
  | rxLost n' f => cases hk; exact .of_rise (by simp) ⟨f, rfl⟩
  | _ => simp_all [State.eventNode]

/-- A poll of a bank that waits for the recovery of node `n`. -/
abbrev State.pollsRecovery (s : State) (a : Input) (n : NodeId) : Prop :=
  ∃ b, a = .waitStep b ∧ (s.bank b).waitKind = .recov ∧ (s.bank b).waitNode = n

theorem State.EventTo.recovering_moves {a : Input} (h : s.EventTo a t) (n : NodeId) :
    FlagMoves (s.node n).recovering (t.node n).recovering False (s.pollsRecovery a n ∨ a = .reset) := by
  refine h.node_moves (f := NodeRegs.recovering) (fun e => ⟨rfl, .inr e⟩) fun ha hk => ?_
  cases h with
  | reset => exact absurd rfl ha
  | recovEnded b _ hkind | recovered b _ hkind =>
    simp only [State.eventNode, hkind, if_true, Option.some.injEq] at hk
    exact .of_fall (by simp [hk]) (.inl ⟨b, rfl, hkind, hk⟩)
  | _ => simp_all [State.eventNode]

/-- An event latches only its own kind (R50, R311). -/
theorem State.EventTo.nip_moves {a : Input} (h : s.EventTo a t) (n : NodeId) (k : EventKind) :
    FlagMoves ((s.node n).nip.get k) ((t.node n).nip.get k)
      ((k = .txc ∧ ∃ m, a = .txDone n m) ∨ (k = .rxp ∧ ∃ f, a = .rxFrame n f) ∨ (k = .berr ∧ ∃ v, a = .busError n v))
      (a = .reset) := by
  refine h.node_moves (f := fun r => r.nip.get k) (fun e => ⟨by cases k <;> rfl, e⟩) fun ha hk => ?_
  have latched : ∀ {u v : Bool} {P Q : Prop}, P → FlagMoves u (u || v) P Q := fun {u v _ _} hp =>
    ⟨fun _ _ => hp, fun h1 h0 => by simp [h1] at h0⟩
  cases h with
  | reset => exact absurd rfl ha
  | txDone n' m =>
    cases hk
    rw [State.node_setNode_same]
    cases k
    · exact latched (.inl ⟨rfl, m, rfl⟩)
    · exact .self
    · exact .self
  | rxStored n' f =>
    cases hk
    rw [State.node_setNode_same]
    cases k
    · exact .self
    · exact latched (.inr (.inl ⟨rfl, f, rfl⟩))
    · exact .self
  | busError n' v | busOff n' v =>
    cases hk
    rw [State.node_setNode_same]
    cases k
    · exact .self
    · exact .self
    · exact latched (.inr (.inr ⟨rfl, v, rfl⟩))
  | _ => simp_all [State.eventNode]

/-! ### The busy bits of a node -/

theorem FlagMoves.trans {z : Bool} (h : FlagMoves x y p q) (h' : FlagMoves y z p q) : FlagMoves x z p q := by
  cases y
  · exact ⟨fun _ hz => h'.rise rfl hz, fun hx _ => h.fall hx rfl⟩
  · exact ⟨fun hx _ => h.rise hx rfl, fun _ hz => h'.fall rfl hz⟩

/-- A write of bit `j` moves no other bit. -/
theorem bitmapSet_moves (w : Word) (j m : Nat) (v : Bool) :
    FlagMoves (bitmapGet w m) (bitmapGet (bitmapSet w j v) m) (m = j ∧ v = true) (m = j ∧ v = false) := by
  by_cases hm : m = j
  · subst hm
    cases v
    · exact .of_fall (by simp [bitmapGet, bitmapSet]) ⟨rfl, rfl⟩
    · exact ⟨fun _ _ => ⟨rfl, rfl⟩, fun h1 h0 => by simp_all [bitmapGet, bitmapSet]⟩
  · exact .of_eq (bitmapGet_bitmapSet_ne hm w v)

/-- A completed recovery clears busy bits of Transmit objects alone (R218). -/
theorem State.idleTransmits_moves (s : State) (n : NodeId) (m : Nat) :
    FlagMoves (bitmapGet (s.node n).nbusy m) (bitmapGet ((s.idleTransmits n).node n).nbusy m) False
      (bitmapGet (s.node n).ndir m = true) := by
  have loop : ∀ (ms : List Nat) (u : State), FlagMoves (bitmapGet (u.node n).nbusy m)
      (bitmapGet ((ms.foldl (fun u j => if bitmapGet (u.node n).ndir j then u.setMoBusy n j false else u) u).node
        n).nbusy m) False (bitmapGet (u.node n).ndir m = true) := by
    intro ms
    induction ms with
    | nil => exact fun u => .self
    | cons j ms ih =>
      intro u
      rw [List.foldl_cons]
      split
      · next hd =>
        have hnode := u.node_setMoBusy n n j false
        rw [if_pos rfl] at hnode
        have hrest := ih (u.setMoBusy n j false)
        rw [hnode] at hrest
        refine FlagMoves.trans ?_ hrest
        exact (bitmapSet_moves _ j m false).mono (fun h => by cases h.2) fun h => h.1 ▸ hd
      · exact ih u
  exact loop _ s

theorem State.Succeeds.nbusy_moves {i : Instr} (h : s.Succeeds i t) (hs : s.PoolInv) (n : NodeId) {m : Nat}
    (hm : m < 32) :
    FlagMoves (bitmapGet (s.node n).nbusy m) (bitmapGet (t.node n).nbusy m) (i = .nodeTransmit n)
      (i = .nodeTryReceive n ∨ i = .mbxReleaseAll n ∨ i = .nodeConfigure n) := by
  refine h.node_moves (f := fun r => bitmapGet r.nbusy m) fun hk => ?_
  cases h with
  | mbxAlloc n' j _ _ hfree =>
    cases hk
    simp only [State.node_setCur, State.setBitmaps, State.node_setNode_same, State.node_mbxWrite]
    refine .of_eq ?_
    by_cases hj : m = j
    · subst hj
      have hidle := (State.MirroredAt.of_free ((hs n).1 m hm) hfree).2.1
      rw [bitmapGet_bitmapSet _ _ _ _ hm, if_pos rfl, hidle]
    · exact bitmapGet_bitmapSet_ne hj _ _
  | nodeTransmit n' j =>
    cases hk
    rw [State.node_setCur, State.node_storeFrame, if_pos rfl]
    exact (bitmapSet_moves _ j m true).mono (fun _ => rfl) fun h => by cases h.2
  | nodeTryReceive n' j =>
    cases hk
    rw [State.node_setCur, State.node_setMoBusy, if_pos rfl]
    exact (bitmapSet_moves _ j m false).mono (fun h => by cases h.2) fun _ => .inl rfl
  | mbxReleaseAll n' => cases hk; exact .of_fall (by simp [State.node_releaseAll]) (.inr (.inl rfl))
  | nodeConfigure n' => cases hk; exact .of_fall (by simp [State.node_releaseAll]) (.inr (.inr rfl))
  | _ => cases hk <;> simp

theorem State.EventTo.nbusy_moves {a : Input} (h : s.EventTo a t) (n : NodeId) (m : Nat) :
    FlagMoves (bitmapGet (s.node n).nbusy m) (bitmapGet (t.node n).nbusy m) (∃ f, a = .rxFrame n f)
      (a = .txDone n m ∨
        (∃ b, a = .waitStep b ∧ (s.bank b).waitKind = .recov ∧ (s.bank b).waitNode = n ∧ (s.node n).state = .busOff ∧
          s.params.recovSeq ≤ (s.node n).recCnt.toNat ∧ (s.node n).ndir.getLsbD m = true) ∨
        a = .reset) := by
  refine h.node_moves (f := fun r => bitmapGet r.nbusy m) (fun e => ⟨by simp [NodeRegs.reset], .inr (.inr e)⟩)
    fun ha hk => ?_
  cases h with
  | reset => exact absurd rfl ha
  | recovered b _ hkind hst hc =>
    simp only [State.eventNode, hkind, if_true, Option.some.injEq] at hk
    subst hk
    have hidle := (s.setNode (s.bank b).waitNode (s.node (s.bank b).waitNode).recovered).idleTransmits_moves
      (s.bank b).waitNode m
    rw [State.node_setNode_same] at hidle
    rw [State.node_setBank]
    exact hidle.mono False.elim fun hd => .inr (.inl ⟨b, rfl, hkind, rfl, hst, hc, hd⟩)
  | txDone n' j =>
    cases hk
    rw [State.node_setNode_same]
    exact (bitmapSet_moves _ j m false).mono (fun h => by cases h.2) fun h => .inl (h.1 ▸ rfl)
  | rxStored n' f _ _ _ j =>
    cases hk
    rw [State.node_setNode_same]
    exact (bitmapSet_moves _ j m true).mono (fun _ => ⟨f, rfl⟩) fun h => by cases h.2
  | _ => simp_all [State.eventNode]

/-! ### The table of R55 -/

/-- A node's flag that no fault entry writes. -/
theorem State.Effect.node_moves (h : s.Effect t) {n : NodeId} {f : NodeRegs → Bool}
    (hfault : ∀ (r : NodeRegs) (v : Bool), f { r with recovering := v } = f r)
    (hcmd : ∀ b w rest i, (s.issued b w rest).Succeeds i t → s.runsNext i → FlagMoves (f (s.node n)) (f (t.node n)) p q)
    (hevent : ∀ a rest, (s.moved rest).EventTo a t → s.inputIs a → FlagMoves (f (s.node n)) (f (t.node n)) p q) :
    FlagMoves (f (s.node n)) (f (t.node n)) p q :=
  h.moves (f := fun u => f (u.node n)) (fun hs => by rw [State.node_congr n hs.nodes])
    (fun u c => by rw [State.faulted_node_eq, hfault]) (fun b w rest i hq hi => by simpa using hcmd b w rest i hq hi)
    fun a rest he ha => by simpa using hevent a rest he ha

theorem State.Effect.configured_moves (h : s.Effect t) (n : NodeId) :
    FlagMoves (s.node n).configured (t.node n).configured (s.runsNext (.nodeConfigure n)) (s.inputIs .reset) :=
  h.node_moves (f := NodeRegs.configured) (fun _ _ => rfl)
    (fun b w rest i hq hi => by simpa using (hq.configured_moves n).mono (fun e => e ▸ hi) False.elim)
    fun a rest he ha => by
      simpa using (he.moves_of_eq (f := fun u => (u.node n).configured) (fun hne => (he.configured_nie_eq hne n).1)
        fun u => by simp [NodeRegs.reset]).mono False.elim fun e => e ▸ ha

theorem State.Effect.rxLost_moves (h : s.Effect t) (n : NodeId) :
    FlagMoves (s.node n).rxLost (t.node n).rxLost (∃ f, s.inputIs (.rxFrame n f))
      (s.runsNext (.nodeConfigure n) ∨ s.inputIs .reset) :=
  h.node_moves (f := NodeRegs.rxLost) (fun _ _ => rfl)
    (fun b w rest i hq hi => by simpa using (hq.rxLost_moves n).mono False.elim fun e => .inl (e ▸ hi))
    fun a rest he ha => by
      simpa using (he.rxLost_moves n).mono (fun ⟨f, e⟩ => ⟨f, e ▸ ha⟩) fun e => .inr (e ▸ ha)

theorem State.Effect.recovering_moves (h : s.Effect t) (n : NodeId) :
    FlagMoves (s.node n).recovering (t.node n).recovering (s.runsNext (.nodeRecover n))
      ((∃ b, s.inputIs (.waitStep b) ∧ (s.bank b).waitKind = .recov ∧ (s.bank b).waitNode = n) ∨
        (s.faultReg = none ∧ t.faultReg ≠ none) ∨ s.inputIs .reset) := by
  refine h.moves_of_cases (f := fun u => (u.node n).recovering) (fun hs => by rw [State.node_congr n hs.nodes])
    (fun b w rest c ht hf => ?_) (fun b w rest i hq hi => (hq.recovering_moves n).mono (fun e => e ▸ hi) False.elim)
    fun a rest he ha => (he.recovering_moves n).mono False.elim fun e => ?_
  · refine ⟨fun h0 h1 => ?_, fun _ _ => .inr (.inl ⟨hf, by simp [ht]⟩)⟩
    rw [ht, State.faulted_node] at h1
    split at h1
    · cases h1
    · exact absurd (h0.symm.trans h1) (by decide)
  · rcases e with ⟨b, rfl, hkind, hnode⟩ | rfl
    · exact .inl ⟨b, ha, by simpa using hkind, by simpa using hnode⟩
    · exact .inr (.inr ha)

theorem State.Effect.nie_moves (h : s.Effect t) (n : NodeId) (k : EventKind) :
    FlagMoves ((s.node n).nie.get k) ((t.node n).nie.get k) (s.runsNext (.irqEnable n))
      (s.runsNext (.irqDisable n) ∨ s.inputIs .reset) :=
  h.node_moves (f := fun r => r.nie.get k) (fun _ _ => rfl)
    (fun b w rest i hq hi => by simpa using (hq.nie_moves n k).mono (fun e => e ▸ hi) fun e => .inl (e ▸ hi))
    fun a rest he ha => by
      simpa using (he.moves_of_eq (f := fun u => (u.node n).nie.get k)
        (fun hne => by rw [(he.configured_nie_eq hne n).2])
        fun u => by cases k <;> simp [NodeRegs.reset, KindBits.get]).mono False.elim fun e => .inr (e ▸ ha)

theorem State.Effect.nip_moves (h : s.Effect t) (n : NodeId) (k : EventKind) :
    FlagMoves ((s.node n).nip.get k) ((t.node n).nip.get k)
      ((k = .txc ∧ ∃ m, s.inputIs (.txDone n m)) ∨ (k = .rxp ∧ ∃ f, s.inputIs (.rxFrame n f)) ∨
        (k = .berr ∧ ∃ v, s.inputIs (.busError n v)))
      (s.runsNext (.irqAck n) ∨ s.runsNext (.irqDisable n) ∨ s.inputIs .reset) := by
  refine h.node_moves (f := fun r => r.nip.get k) (fun _ _ => rfl) (fun b w rest i hq hi => ?_) fun a rest he ha => ?_
  · have hmove := hq.nip_moves n k
    simp only [State.node_takeCommand, State.node_moved] at hmove
    refine hmove.mono False.elim fun e => ?_
    rcases e with rfl | rfl
    · exact .inl hi
    · exact .inr (.inl hi)
  · have hmove := he.nip_moves n k
    rw [State.node_moved] at hmove
    refine hmove.mono (fun e => ?_) fun e => .inr (.inr (e ▸ ha))
    rcases e with ⟨hk, m, rfl⟩ | ⟨hk, f, rfl⟩ | ⟨hk, v, rfl⟩
    · exact .inl ⟨hk, m, ha⟩
    · exact .inr (.inl ⟨hk, f, ha⟩)
    · exact .inr (.inr ⟨hk, v, ha⟩)

theorem State.Effect.nbusy_moves (h : s.Effect t) (hs : s.PoolInv) (n : NodeId) {m : Nat} (hm : m < 32) :
    FlagMoves ((s.node n).nbusy.getLsbD m) ((t.node n).nbusy.getLsbD m)
      (s.runsNext (.nodeTransmit n) ∨ ∃ f, s.inputIs (.rxFrame n f))
      (s.inputIs (.txDone n m) ∨ s.runsNext (.nodeTryReceive n) ∨ s.runsNext (.mbxReleaseAll n) ∨
        s.runsNext (.nodeConfigure n) ∨
        (∃ b, s.inputIs (.waitStep b) ∧ (s.bank b).waitKind = .recov ∧ (s.bank b).waitNode = n ∧
          (s.node n).state = .busOff ∧ s.params.recovSeq ≤ (s.node n).recCnt.toNat ∧
          (s.node n).ndir.getLsbD m = true) ∨ s.inputIs .reset) := by
  refine h.node_moves (f := fun r => r.nbusy.getLsbD m) (fun _ _ => rfl) (fun b w rest i hq hi => ?_)
    fun a rest he ha => ?_
  · have hpool : (s.issued b w rest).PoolInv := hs.of_nodes (by simp) (by simp) (by simp)
    have hmove := hq.nbusy_moves hpool n hm
    simp only [State.node_takeCommand, State.node_moved] at hmove
    refine hmove.mono (fun e => .inl (e ▸ hi)) fun e => ?_
    rcases e with rfl | rfl | rfl
    · exact .inr (.inl hi)
    · exact .inr (.inr (.inl hi))
    · exact .inr (.inr (.inr (.inl hi)))
  · have hmove := he.nbusy_moves n m
    simp only [State.node_moved, State.bank_moved, State.moved_params] at hmove
    refine hmove.mono (fun ⟨f, e⟩ => .inr ⟨f, e ▸ ha⟩) fun e => ?_
    rcases e with rfl | ⟨b, rfl, hdone⟩ | rfl
    · exact .inl ha
    · exact .inr (.inr (.inr (.inr (.inl ⟨b, ha, hdone⟩))))
    · exact .inr (.inr (.inr (.inr (.inr ha))))

/-- Settles O53: each flag's rise and fall by the effect of the step. -/
theorem flagsChangeOnlyByTheirTable : Obligations.FlagsChangeOnlyByTheirTable := by
  intro s t hs ht reset faultEntered
  have h := (step_to ht).effect
  refine ⟨h.held_moves.rise, h.held_moves.fall, h.unlocked_moves.rise, h.unlocked_moves.fall, h.lockBit_moves.rise,
    h.lockBit_moves.fall, h.oscRun_moves.rise, h.oscRun_moves.fall,
    fun d => ⟨(h.clken_moves d).rise, (h.clken_moves d).fall⟩, h.faultReg_set, h.faultReg_cleared,
    fun b => ⟨(h.busy_moves b).rise, (h.busy_moves b).fall⟩, fun n => ?_⟩
  exact ⟨(h.configured_moves n).rise, (h.configured_moves n).fall, (h.rxLost_moves n).rise, (h.rxLost_moves n).fall,
    (h.recovering_moves n).rise, (h.recovering_moves n).fall,
    fun k => ⟨(h.nie_moves n k).rise, (h.nie_moves n k).fall, (h.nip_moves n k).rise, (h.nip_moves n k).fall⟩,
    fun m hm => ⟨(h.nbusy_moves hs n hm).rise, (h.nbusy_moves hs n hm).fall⟩⟩

end Sys2Proof.Machine
end

section
/-! PROOFS. The host bus (20_memory.md R70, R71, R77, R80): which address lies in which window, and what an access there
does. -/

namespace Sys2Proof.Machine

/-- Where the windows do not overlap, each address of a window is found at its offset in that window. -/
theorem windowOf_eq_some {p : Params} {b : BankId} {addr : Word} {x : Nat} (hp : p.portsDisjoint) (hx : x < 64)
    (ha : addr.toNat = (p.portBase b).toNat + x) : windowOf p addr = some (b, x) := by
  unfold windowOf
  cases b with
  | fg =>
    simp only [Params.portBase] at ha
    rw [if_pos (by omega), ha, Nat.add_sub_cancel_left]
  | irq =>
    simp only [Params.portBase] at ha
    rw [if_neg (by omega), if_pos (by omega), ha, Nat.add_sub_cancel_left]

theorem windowOf_eq_none {p : Params} {addr : Word}
    (h : ∀ c, addr.toNat < (p.portBase c).toNat ∨ (p.portBase c).toNat + 64 ≤ addr.toNat) : windowOf p addr = none := by
  have h0 := h .fg
  have h1 := h .irq
  simp only [Params.portBase] at h0 h1
  rw [windowOf, if_neg (by omega), if_neg (by omega)]

/-- A window does not wrap, so the address of a slot is the sum of the two numbers. -/
theorem slotAddr_toNat {p : Params} (hp : p.portsDisjoint) (b : BankId) (i : Fin 16) :
    (p.portBase b + BitVec.ofNat 32 (4 * i.val)).toNat = (p.portBase b).toNat + 4 * i.val := by
  have hbase : (p.portBase b).toNat + 64 ≤ 2 ^ 32 := by
    cases b
    · exact hp.1
    · exact hp.2.1
  rw [BitVec.toNat_add, BitVec.toNat_ofNat]
  omega

section
variable {s : State} {addr : Word} {width : BusWidth} {b : BankId} {x : Nat} (act : BankId → Fin 16 → Result)

theorem State.busAccess_outside (h : windowOf s.params addr = none) :
    s.busAccess addr width act = .fault (.noSuchPortAddress addr) := by
  simp only [State.busAccess, h]

theorem State.busAccess_narrow (h : windowOf s.params addr = some (b, x)) (hn : width ≠ .word ∨ x % 4 ≠ 0) :
    s.busAccess addr width act = .refused .narrowPortAccess := by
  simp only [State.busAccess, h]
  exact if_neg fun ⟨hw, hx⟩ => hn.elim (· hw) (· hx)

theorem State.busAccess_slot {i : Fin 16} (h : windowOf s.params addr = some (b, 4 * i.val)) :
    s.busAccess addr .word act = act b i := by
  have hi : Fin.ofNat 16 (4 * i.val / 4) = i := by
    rw [Nat.mul_div_cancel_left i.val (by decide)]
    exact Fin.ofNat_val_eq_self i
  simp only [State.busAccess, h]
  rw [if_pos ⟨trivial, Nat.mul_mod_right 4 i.val⟩, hi]

end

theorem step_busRead {s : State} {addr : Word} {width : BusWidth} {rest : List Input}
    (h : s.schedule = .busRead addr width :: rest) :
    step s = (s.moved rest).busAccess addr width (s.moved rest).doPortRead :=
  step_cons h

theorem step_busWrite {s : State} {addr v : Word} {width : BusWidth} {rest : List Input}
    (h : s.schedule = .busWrite addr width v :: rest) :
    step s = (s.moved rest).busAccess addr width fun b i => (s.moved rest).doPortWrite b i v :=
  step_cons h

/-- Settles O9: by the window the address lies in and the offset there. -/
theorem busAccessesReachTheSlots : Obligations.BusAccessesReachTheSlots := by
  intro s b i addr v width rest hp
  refine ⟨fun haddr => ?_, fun hbus => ?_⟩
  · have hslot : windowOf (s.moved rest).params addr = some (b, 4 * i.val) :=
      windowOf_eq_some hp (by omega) (haddr ▸ slotAddr_toNat hp b i)
    refine ⟨fun h => ?_, fun h => ?_⟩
    · rw [step_busRead h, State.busAccess_slot _ hslot]
      rfl
    · rw [step_busWrite h, State.busAccess_slot _ hslot]
      rfl
  · obtain ⟨act, hstep⟩ : ∃ act, step s = (s.moved rest).busAccess addr width act :=
      hbus.elim (fun h => ⟨_, step_busRead h⟩) fun h => ⟨_, step_busWrite h⟩
    rw [hstep]
    exact ⟨fun x hx ha hn => State.busAccess_narrow act (windowOf_eq_some hp hx ha) hn,
      fun hout => State.busAccess_outside act (windowOf_eq_none hout)⟩

end Sys2Proof.Machine
end

section
/-! PROOFS. Masking of payload words (20_memory.md R75, R76), byte by byte. -/

namespace Sys2Proof.Machine

theorem getLsbD_lowmask (j i : Nat) : (lowmask j).getLsbD i = (decide (i < 32) && decide (i < 8 * j)) := by
  rw [lowmask, BitVec.getLsbD_ofNat, Nat.testBit_two_pow_sub_one]

/-- The mask of the low `j` bytes keeps byte `k` of a word exactly when `k < j`. -/
theorem extractLsb'_and_lowmask (w : Word) (j : Nat) {k : Nat} (hk : k < 4) :
    (w &&& lowmask j).extractLsb' (8 * k) 8 = if j ≤ k then 0 else w.extractLsb' (8 * k) 8 := by
  apply BitVec.eq_of_getLsbD_eq
  intro i hi
  have hlow : (lowmask j).getLsbD (8 * k + i) = decide (k < j) := by
    rw [getLsbD_lowmask, decide_eq_true (show 8 * k + i < 32 by omega), Bool.true_and, decide_eq_decide]
    omega
  rw [BitVec.getLsbD_extractLsb', BitVec.getLsbD_and, hlow]
  by_cases hj : j ≤ k
  · simp [hj]
  · simp [hj, hi, Nat.lt_of_not_le hj]

/-- Settles O22: a remote frame loses both words; of a data frame byte `k` lies in `DATAL`, whose mask keeps `min DLC 4`
bytes, or in `DATAH`, whose mask keeps the bytes of `DLC` beyond 4. -/
theorem maskingKeepsTheFirstBytes : Obligations.MaskingKeepsTheFirstBytes := by
  intro dlc rtr dl dh k hk
  cases rtr with
  | true => simp [maskData, payloadByte]
  | false =>
    simp only [maskData, payloadByte, Bool.false_eq_true, if_false, false_or]
    by_cases hlow : k < 4
    · have hmin : min dlc.toNat 4 ≤ k ↔ dlc.toNat ≤ k := by omega
      simp only [if_pos hlow, extractLsb'_and_lowmask dl _ hlow, hmin]
    · have hmax : max dlc.toNat 4 - 4 ≤ k - 4 ↔ dlc.toNat ≤ k := by omega
      simp only [if_neg hlow, extractLsb'_and_lowmask dh _ (show k - 4 < 4 by omega), hmax]

end Sys2Proof.Machine
end

section
/-! PROOFS. The port slots (20_memory.md R71, R72): what a port access does, slot by slot. -/

namespace Sys2Proof.Machine

theorem State.portRead_moved (s : State) (l : List Input) (b : BankId) (i : Fin 16) :
    (s.moved l).portRead b i = s.portRead b i := by
  simp only [State.portRead, State.bank_moved]

theorem step_portRead {s : State} {b : BankId} {i : Fin 16} {rest : List Input} (h : s.schedule = .portRead b i :: rest) :
    step s = .next ((s.moved rest).setReadData (s.portRead b i)) := by
  rw [step_cons h, ← s.portRead_moved rest]
  rfl

/-- A write of a slot other than `CMD` issues no command. -/
theorem step_portWrite_operand {s : State} {b : BankId} {i : Fin 16} {v : Word} {rest : List Input}
    (h : s.schedule = .portWrite b i v :: rest) (hi : i ≠ 0) :
    step s = .next ((s.moved rest).storeOperand b i v) := by
  rw [step_cons h]
  exact if_neg hi

/-- Only the `ARG` slots store. -/
theorem State.storeOperand_ignored (s : State) (b : BankId) {i : Fin 16} (v : Word) (hi : i = 1 ∨ 7 ≤ i.val) :
    s.storeOperand b i v = s := by
  unfold State.storeOperand
  split
  case h_6 => rfl
  all_goals omega

/-- Settles O8: each slot's row of the two tables; a write stores whatever the bank and the latch hold. -/
theorem portSlotsReadAndWrite : Obligations.PortSlotsReadAndWrite := by
  intro s b i v rest bk moved
  refine ⟨fun h => ⟨s.portRead b i, step_portRead h, ?_⟩, fun h => ?_⟩
  · refine ⟨?cmd, ?stat, ?arg0, ?arg1, ?arg2, ?arg3, ?arg4, ?res0, ?res1, ?res2, ?res3, ?res4, ?res5, ?reserved⟩
    case stat => rintro rfl; exact bk.stat_toNat
    case reserved => rintro (rfl | rfl | rfl) <;> rfl
    all_goals rintro rfl; rfl
  · have hstore (hi : i ≠ 0) : step s = .next (moved.storeOperand b i v) := step_portWrite_operand h hi
    refine ⟨?write0, ?write1, ?write2, ?write3, ?write4, fun hi => ?ignored⟩
    case ignored => rw [hstore (by omega), State.storeOperand_ignored moved b v hi]
    all_goals rintro rfl; exact hstore (by decide)

end Sys2Proof.Machine
end

section
/-! PROOFS. The pure reads (20_memory.md R78) write only the results and the code of their bank. -/

namespace Sys2Proof.Machine

/-- `s`, its issuing bank showing the code and the results of `bk`. -/
def State.withResultsOf (s : State) (bk : Bank) : State :=
  s.setCur { s.cur with
    code := bk.code, res0 := bk.res0, res1 := bk.res1, res2 := bk.res2, res3 := bk.res3, res4 := bk.res4, res5 := bk.res5 }

/-- A command that has put only a code and results into its bank has changed nothing else. -/
theorem State.eq_withResultsOf {s t : State} {c : ResultCode} {v0 v1 v2 v3 v4 v5 : Word}
    (h : t = s.setCur { s.cur with
      code := c, res0 := v0, res1 := v1, res2 := v2, res3 := v3, res4 := v4, res5 := v5 }) :
    t = s.withResultsOf t.cur := by
  subst h
  rw [State.withResultsOf, State.cur_setCur]

/-- Settles O55: a pure read that succeeds or ends with an error code writes its own bank only; a port read writes the word
it returns and nothing the block holds. -/
theorem pureReadsChangeOnlyTheirResults : Obligations.PureReadsChangeOnlyTheirResults := by
  refine ⟨fun i s t hi ht hcode => ?_, fun s t b i rest h ht => ?_⟩
  · change t = s.withResultsOf t.cur
    rcases exec_cases ht with ⟨c, rfl⟩ | ⟨c, -, rfl⟩ | hs
    · exact absurd (s.faulted_cur c).2 hcode
    · exact State.eq_withResultsOf rfl
    · rcases hi with rfl | ⟨n, rfl⟩ | rfl | ⟨n, rfl⟩ | rfl | rfl | rfl
      all_goals cases hs; exact State.eq_withResultsOf rfl
  · rw [step_portRead h] at ht
    injection ht with ht
    subst ht
    rfl

end Sys2Proof.Machine
end

section
/-! PROOFS. The encoding (30_encoding.md R101 to R107): the fields of a word as numbers, the opcode map read both ways, and
what the decoder answers on every word. -/

namespace Sys2Proof

/-! ### The fields of a word (R101) -/

theorem opcOf_toNat (w : Word) : (opcOf w).toNat = w.toNat % 256 := by
  simp [opcOf]

theorem nodeOf_val (w : Word) : (nodeOf w).val = w.toNat / 256 % 16 := by
  simp [nodeOf, Nat.shiftRight_eq_div_pow]

theorem zeroOf_toNat (w : Word) : (zeroOf w).toNat = w.toNat / 4096 := by
  have hlt : w.toNat / 4096 < 2 ^ 20 := by omega
  rw [zeroOf, BitVec.extractLsb'_toNat, Nat.shiftRight_eq_div_pow]
  exact Nat.mod_eq_of_lt hlt

theorem zeroOf_eq_zero_iff (w : Word) : zeroOf w = 0 ↔ w.toNat / 4096 = 0 := by
  rw [← zeroOf_toNat, ← BitVec.toNat_inj]
  rfl

/-- The three fields cover the word. -/
theorem word_eq_of_fields {v w : Word} (hopc : opcOf v = opcOf w) (hzero : zeroOf v = zeroOf w)
    (hnode : nodeOf v = nodeOf w) : v = w := by
  have ho := congrArg BitVec.toNat hopc
  have hz := congrArg BitVec.toNat hzero
  have hn := congrArg Fin.val hnode
  rw [opcOf_toNat, opcOf_toNat] at ho
  rw [zeroOf_toNat, zeroOf_toNat] at hz
  rw [nodeOf_val, nodeOf_val] at hn
  apply BitVec.eq_of_toNat_eq
  omega

/-! ### The opcode map (R104) -/

/-- A row of class C0 is found under its command's opcode, one of class CN under the opcode of its command at every node. -/
theorem opc_of_opRow (o : BitVec 8) :
    (∀ i, opRow o = some (.c0 i) → i.opc = o) ∧ ∀ f, opRow o = some (.cn f) → ∀ n, (f n).opc = o := by
  unfold opRow
  split <;> simp [Instr.opc, ← BitVec.toNat_inj, *]

/-- A block-wide command's row is its own. -/
theorem opRow_opc_c0 {i : Instr} (h : i.node = none) : opRow i.opc = some (.c0 i) := by
  cases i <;> simp only [Instr.node, reduceCtorEq] at h <;> rfl

/-- A per-node command's row answers the command at its node. -/
theorem opRow_opc_cn {i : Instr} {n : NodeId} (h : i.node = some n) : ∃ f, opRow i.opc = some (.cn f) ∧ f n = i := by
  cases i <;> simp only [Instr.node, Option.some.injEq, reduceCtorEq] at h <;> exact ⟨_, rfl, h ▸ rfl⟩

theorem opRow_c0_iff (o : BitVec 8) : (∃ i, opRow o = some (.c0 i)) ↔
    o.toNat ∈ [0x00, 0x01, 0x02, 0x03, 0x10, 0x11, 0x12, 0x13, 0x14, 0x15, 0x20] := by
  unfold opRow
  split
  case h_26 => simp_all
  all_goals simp [*]

theorem opRow_cn_iff (o : BitVec 8) : (∃ f, opRow o = some (.cn f)) ↔
    o.toNat ∈ [0x30, 0x31, 0x32, 0x40, 0x41, 0x42, 0x43, 0x44, 0x45, 0x46, 0x47, 0x50, 0x51, 0x52] := by
  unfold opRow
  split
  case h_26 => simp_all
  all_goals simp [*]

/-- An opcode is reserved exactly when it is in neither class (R107). -/
theorem opRow_eq_none_iff (o : BitVec 8) :
    opRow o = none ↔ (¬∃ i, opRow o = some (.c0 i)) ∧ ¬∃ f, opRow o = some (.cn f) := by
  rcases opRow o with _ | (_ | _) <;> simp

/-! ### The decoder (R106, R107, R122) -/

theorem decode_eq_ok_iff {N : Nat} {w : Word} {i : Instr} : decode N w = .ok i ↔
    zeroOf w = 0 ∧ ((opRow (opcOf w) = some (.c0 i) ∧ nodeOf w = 0) ∨
      ∃ f, opRow (opcOf w) = some (.cn f) ∧ (nodeOf w).val < N ∧ f (nodeOf w) = i) := by
  unfold decode
  by_cases hz : zeroOf w = 0#20
  · rcases opRow (opcOf w) with _ | (j | f)
    · simp [hz]
    · by_cases hn : nodeOf w = 0 <;> simp [hz, hn]
    · by_cases hn : (nodeOf w).val < N <;> simp [hz, hn]
  · simp [hz]

theorem decode_eq_error_iff {N : Nat} {w : Word} : (∃ e, decode N w = .error e) ↔
    zeroOf w ≠ 0 ∨ opRow (opcOf w) = none ∨ ((∃ i, opRow (opcOf w) = some (.c0 i)) ∧ nodeOf w ≠ 0) ∨
      ((∃ f, opRow (opcOf w) = some (.cn f)) ∧ N ≤ (nodeOf w).val) := by
  unfold decode
  by_cases hz : zeroOf w = 0#20
  · rcases opRow (opcOf w) with _ | (j | f)
    · simp [hz]
    · by_cases hn : nodeOf w = 0 <;> simp [hz, hn]
    · by_cases hn : (nodeOf w).val < N
      · simp [hz, hn]
      · simp [hz, hn, Nat.le_of_not_lt hn]
  · simp [hz]

/-- The decoder answers a command exactly on the words whose fields are the command's, when the block has its node. -/
theorem decode_eq_ok_iff_fields {N : Nat} {w : Word} {i : Instr} : decode N w = .ok i ↔
    opcOf w = i.opc ∧ zeroOf w = 0 ∧ nodeOf w = i.node.getD 0 ∧ i.wf N = true := by
  obtain ⟨hopc0, hopcn⟩ := opc_of_opRow (opcOf w)
  obtain ⟨hnode0, hnoden⟩ := Machine.opRow_node (opcOf w)
  rw [decode_eq_ok_iff]
  constructor
  · rintro ⟨hz, ⟨hrow, hn⟩ | ⟨f, hrow, hlt, rfl⟩⟩
    · exact ⟨(hopc0 i hrow).symm, hz, by simp [hnode0 i hrow, hn], by simp [Instr.wf, hnode0 i hrow]⟩
    · exact ⟨(hopcn f hrow _).symm, hz, by simp [hnoden f hrow], by simp [Instr.wf, hnoden f hrow, hlt]⟩
  · rintro ⟨hopc, hz, hn, hwf⟩
    refine ⟨hz, ?_⟩
    rw [hopc]
    cases hi : i.node with
    | none => exact .inl ⟨opRow_opc_c0 hi, by simp [hn, hi]⟩
    | some n =>
      obtain ⟨f, hrow, hf⟩ := opRow_opc_cn hi
      rw [hi, Option.getD_some] at hn
      exact .inr ⟨f, hrow, by simpa [Instr.wf, hi, hn] using hwf, by rw [hn, hf]⟩

/-- Settles O1: an encoded word carries its command's fields, and on those the decoder answers the command. -/
theorem decodeOfEncodeIsTheCommand : Obligations.DecodeOfEncodeIsTheCommand := by
  intro N i hwf
  obtain ⟨hopc, hzero, hnode⟩ := Laws.encode_fields i
  exact decode_eq_ok_iff_fields.mpr ⟨hopc, hzero, hnode, hwf⟩

/-- Settles O2: an accepted word carries the fields of the command it answers, and no other word carries them. -/
theorem decodedWordIsItsEncoding : Obligations.DecodedWordIsItsEncoding := by
  intro N w i h
  obtain ⟨hopc, hzero, hnode, hwf⟩ := decode_eq_ok_iff_fields.mp h
  obtain ⟨hopc', hzero', hnode'⟩ := Laws.encode_fields i
  exact ⟨word_eq_of_fields (hopc'.trans hopc.symm) (hzero'.trans hzero.symm) (hnode'.trans hnode.symm), hwf⟩

/-- Settles O4: the decoder run on each word. -/
theorem sampleWordsDecodeAsTheTableSays : Obligations.SampleWordsDecodeAsTheTableSays := by
  unfold Obligations.SampleWordsDecodeAsTheTableSays
  decide

end Sys2Proof
end

section
/-! PROOFS. Command issue (30_encoding.md R106, R109, R110, R121), arm by arm, and the fault entry an illegal word raises. -/

namespace Sys2Proof.Machine

/-! ### The fault entry (60_exceptions.md R304, R305) -/

/-- The state a fault of the issuing bank leads to is the fault entry the rules describe. -/
theorem State.faultEntry_faulted (s : State) (c : FaultCause) : s.FaultEntry (s.faulted c) c where
  latch := by simp
  bank := s.faulted_bank c
  node n := by
    simp only [State.faulted_node, Bool.or_eq_true, Bool.and_eq_true, State.waitsFor_iff, State.bank_fg, State.bank_irq,
      eq_comm (a := n)]
  rest := by ext <;> simp

theorem State.raiseFault_eq (s : State) (c : FaultCause) : s.raiseFault c = .next (s.faulted c) :=
  State.raiseFault_eq_next.mpr rfl

/-! ### The arms of the issue step (R121) -/

section
variable {s : State} {b : BankId} {w : Word}

theorem State.issue_of_busy (hb : (s.bank b).busy = true) : s.issue b w = .next s.flagIgnored :=
  if_pos hb

theorem State.issue_of_fault (hb : (s.bank b).busy = false) (hf : s.faultReg ≠ none) :
    s.issue b w = .next (s.setBank b { s.bank b with cmd := w, code := .faulted }) := by
  simp [State.issue, hb, Option.isSome_iff_ne_none.mpr hf]

theorem State.issue_of_free (hb : (s.bank b).busy = false) (hf : s.faultReg = none) : s.issue b w = s.issueFree b w := by
  simp [State.issue, hb, hf]

theorem State.issueFree_of_ok {i : Instr} (hd : decode s.params.nNode w = .ok i) :
    s.issueFree b w = exec i (s.takeCommand b w) := by
  simp [State.issueFree, hd]

theorem State.issueFree_of_error {e : Illegal} (hd : decode s.params.nNode w = .error e) :
    s.issueFree b w = .next ((s.takeCommand b w).faulted .illegalCmd) := by
  simp [State.issueFree, hd, State.raiseFault_eq]

end

section
variable {s : State} {b : BankId} {w : Word} {rest : List Input} (h : s.schedule = .portWrite b 0 w :: rest)
include h

/-- A write of slot 0 is the issue of a command. -/
theorem step_portWrite_command : step s = (s.moved rest).issue b w := by
  rw [step_cons h, State.perform, State.doPortWrite, if_pos rfl]

/-- On a free bank of a block without a latched fault the word is decoded. -/
theorem step_issueFree (hb : (s.bank b).busy = false) (hf : s.faultReg = none) :
    step s = (s.moved rest).issueFree b w := by
  rw [step_portWrite_command h, State.issue_of_free (by simpa using hb) (by simpa using hf)]

end

/-- Settles O3: the decoder's error cases read on the word's number; an error takes the fault entry. -/
theorem illegalWordsAreExactlyTheListed : Obligations.IllegalWordsAreExactlyTheListed := by
  intro s b w rest opc node c0 cn illegal
  have hillegal : (∃ e, decode s.params.nNode w = .error e) ↔ illegal := by
    rw [decode_eq_error_iff, opRow_eq_none_iff, opRow_c0_iff, opRow_cn_iff, opcOf_toNat, nodeOf_val, ne_eq,
      zeroOf_eq_zero_iff, ne_eq, Fin.ext_iff, nodeOf_val]
    rfl
  refine ⟨hillegal, fun hw h hb hf => ?_⟩
  obtain ⟨e, he⟩ := hillegal.mpr hw
  exact ⟨_, (step_issueFree h hb hf).trans (State.issueFree_of_error he), State.faultEntry_faulted _ _⟩

/-- Settles O5: the issue step's last arm. -/
theorem stepRunsTheDecodedCommand : Obligations.StepRunsTheDecodedCommand := by
  intro s b w rest i h hb hf hd
  exact (step_issueFree h hb hf).trans (State.issueFree_of_ok hd)

/-- Settles O6: the issue step's first two arms. -/
theorem busyBankIgnoresAndFaultRefuses : Obligations.BusyBankIgnoresAndFaultRefuses := by
  intro s b w rest h
  rw [step_portWrite_command h]
  refine ⟨fun hb => ⟨_, State.issue_of_busy (by simpa using hb), rfl⟩, fun hb hf => ?_⟩
  rw [State.issue_of_fault (by simpa using hb) (by simpa using hf), State.bank_moved]

end Sys2Proof.Machine
end

section
/-! PROOFS. The guard (40_guard.md R130, R131, R135): what its two commands answer, and which steps reach the protected
registers (R42, R81) and the guard itself. -/

namespace Sys2Proof.Machine

variable {s t : State}

/-! ### The two commands -/

theorem exec_guardAcq_of_held (h : s.prot.held = true) : exec .guardAcq s = .next (s.coded .guardAlreadyHeld) := by
  rw [exec, execGuardAcq, if_pos h, State.ret_eq_coded]

/-- Settles O12: each command branches on the condition the rule names. -/
theorem guardCommandsSwitchTheGuard : Obligations.GuardCommandsSwitchTheGuard := by
  intro s
  constructor
  · by_cases h : s.prot.held = true
    · rw [if_pos h, exec_guardAcq_of_held h]
    · rw [if_neg h, exec, execGuardAcq, if_neg h, State.ret_eq_coded, State.acquire]
  · have hcond : (!s.prot.held || s.prot.owner ≠ s.issuer) = true ↔ s.prot.held = false ∨ s.prot.owner ≠ s.issuer := by
      simp
    rw [exec, execGuardRel]
    by_cases h : s.prot.held = false ∨ s.prot.owner ≠ s.issuer
    · rw [if_pos h, if_pos (hcond.mpr h), State.ret_eq_coded]
    · rw [if_neg h, if_neg (mt hcond.mp h), State.ret_eq_coded, State.release]

/-! ### The command the next step runs -/

/-- An event writes no command word. -/
theorem State.nextCommand_of_event {a : Input} {rest : List Input} (h : s.schedule = a :: rest) (ha : a.isEvent = true) :
    s.nextCommand = none := by
  cases a with
  | portRead | portWrite | busRead | busWrite => cases ha
  | _ => simp [State.nextCommand, Input.command, Input.slotWrite, h]

/-- A step that runs a command answers as the command does on its bank. -/
theorem State.StepTo.exec_eq (h : s.StepTo t) {b : BankId} {i : Instr} (hi : s.nextInstr = some (b, i)) :
    ∃ w rest, exec i (s.issued b w rest) = .next t := by
  cases h with
  | idle h => simp [State.nextInstr, State.nextCommand, h] at hi
  | read _ _ _ _ hc | operand _ _ _ _ hc => simp [State.nextInstr, hc] at hi
  | ignored _ _ _ _ _ _ hc hb => simp [State.nextInstr, hc, hb] at hi
  | latched _ _ _ _ _ _ hc _ hf => simp [State.nextInstr, hc, hf] at hi
  | illegal _ _ _ _ _ _ _ _ _ _ _ hnone => simp [hnone] at hi
  | command _ rest _ _ _ w _ _ _ _ _ hj t ht =>
    cases hj.symm.trans hi
    exact ⟨w, rest, ht⟩
  | event a rest h ha => simp [State.nextInstr, State.nextCommand_of_event h ha] at hi

/-! ### The protected registers -/

theorem State.sameButBanks.sameProtected (h : s.sameButBanks t) : s.sameProtected t := by
  obtain ⟨-, hn, -, -, -, -, hosc, hpll, hccu, -⟩ := h
  exact ⟨hosc, hpll, hccu, fun n => by rw [State.node_congr n hn]⟩

theorem State.sameProtected_faulted (s : State) (c : FaultCause) : s.sameProtected (s.faulted c) :=
  ⟨by simp, by simp, by simp, fun n => by rw [State.faulted_node_eq]⟩

/-- Only `NODE_CONFIGURE` of the node writes its bit timing. -/
theorem State.Succeeds.nbtr_eq {i : Instr} (h : s.Succeeds i t) {n : NodeId} (hi : i ≠ .nodeConfigure n) :
    (t.node n).nbtr = (s.node n).nbtr := by
  by_cases hk : i.node = some n
  swap
  · rw [h.node_eq hk]
  cases h with
  | nodeConfigure => cases hk; exact absurd rfl hi
  | _ => cases hk <;> simp [State.setBitmaps, State.node_releaseAll, State.node_storeFrame, State.node_setMoBusy]

@[simp] theorem State.node_idleTransmits_nbtr (s : State) (n : NodeId) :
    ((s.idleTransmits n).node n).nbtr = (s.node n).nbtr := by rw [State.node_idleTransmits, if_pos rfl]

theorem State.EventTo.nbtr_eq {a : Input} (h : s.EventTo a t) (ha : a ≠ .reset) (n : NodeId) :
    (t.node n).nbtr = (s.node n).nbtr := by
  by_cases hk : s.eventNode a = some n
  swap
  · rw [h.node_eq ha hk]
  cases h with
  | reset => exact absurd rfl ha
  | _ => simp_all [State.eventNode]

/-- The commands that write protected registers do so only with the guard free (R132). -/
theorem State.Succeeds.sameProtected {i : Instr} (h : s.Succeeds i t) :
    s.sameProtected t ∨
      (s.prot.held = false ∧ (i = .clkConfigure ∨ i = .clkReinit ∨ ∃ n, i = .nodeConfigure n)) := by
  have hnbtr := fun n => h.nbtr_eq (n := n)
  cases h with
  | clkConfigure _ _ _ _ _ _ _ _ _ _ _ hp | clkReinit _ hp | nodeConfigure _ _ _ _ _ _ hp => exact .inr ⟨hp, by simp⟩
  | _ => exact .inl ⟨by simp, by simp, by simp, fun n => hnbtr n (by simp)⟩

theorem State.EventTo.sameProtected {a : Input} (h : s.EventTo a t) (ha : a ≠ .reset) : s.sameProtected t := by
  have hnbtr := h.nbtr_eq ha
  cases h with
  | reset => exact absurd rfl ha
  | _ => exact ⟨by simp, by simp, by simp, hnbtr⟩

theorem State.Effect.sameProtected (h : s.Effect t) :
    s.sameProtected t ∨ s.inputIs .reset ∨
      (s.prot.held = false ∧
        (s.runsNext .clkConfigure ∨ s.runsNext .clkReinit ∨ ∃ n, s.runsNext (.nodeConfigure n))) := by
  cases h with
  | quiet t hs => exact .inl hs.sameProtected
  | fault b w rest c => exact .inl (by simpa [State.sameProtected] using (s.issued b w rest).sameProtected_faulted c)
  | success b w rest i hi _ _ t hq =>
    have hnext := s.runsNext_of_nextInstr hi
    rcases hq.sameProtected with hsame | ⟨hp, hi⟩
    · exact .inl (by simpa [State.sameProtected] using hsame)
    · refine .inr (.inr ⟨by simpa using hp, ?_⟩)
      rcases hi with rfl | rfl | ⟨n, rfl⟩
      · exact .inl hnext
      · exact .inr (.inl hnext)
      · exact .inr (.inr ⟨n, hnext⟩)
  | event a rest ha t he =>
    by_cases hr : a = .reset
    · exact .inr (.inl (hr ▸ ha))
    · exact .inl (by simpa [State.sameProtected] using he.sameProtected hr)

/-! ### A held guard -/

/-- A command leaves a held guard with its owner, but for the owner's own release. -/
theorem State.Succeeds.prot_of_held {i : Instr} (h : s.Succeeds i t) (hp : s.prot.held = true) :
    (i = .guardRel ∧ s.prot.owner = s.issuer) ∨ t.prot = s.prot := by
  cases h with
  | guardRel _ ho => exact .inl ⟨rfl, ho⟩
  | guardAcq hfree | clkConfigure _ _ _ _ _ _ _ _ _ _ _ hfree | clkReinit _ hfree
  | nodeConfigure _ _ _ _ _ _ hfree => simp [hfree] at hp
  | _ => exact .inr (by simp)

theorem State.Effect.prot_of_held (h : s.Effect t) (hp : s.prot.held = true) :
    s.inputIs .reset ∨ s.nextInstr = some (s.prot.owner, .guardRel) ∨ t.prot = s.prot := by
  cases h with
  | quiet t hs => exact .inr (.inr hs.prot)
  | fault => exact .inr (.inr (by simp))
  | success b w rest i hi _ _ t hq =>
    rcases hq.prot_of_held (by simpa using hp) with ⟨rfl, ho⟩ | hprot
    · have ho' : s.prot.owner = b := by simpa using ho
      exact .inr (.inl (ho' ▸ hi))
    · exact .inr (.inr (by simpa using hprot))
  | event a rest ha t he =>
    by_cases hr : a = .reset
    · exact .inl (hr ▸ ha)
    · exact .inr (.inr (by simpa using he.prot_eq hr))

/-- No bank takes a held guard. -/
theorem State.StepTo.guardAcq_fails (h : s.StepTo t) (hp : s.prot.held = true) {b : BankId}
    (hi : s.nextInstr = some (b, .guardAcq)) : (t.bank b).code = .guardAlreadyHeld := by
  obtain ⟨w, rest, ht⟩ := h.exec_eq hi
  rw [exec_guardAcq_of_held (by simpa using hp)] at ht
  injection ht with ht
  rw [← ht, State.coded_bank, State.takeCommand_issuer, if_pos rfl]

/-- Settles O49: by the effect of the step, each kind of step by its own lemma; a command that runs answers as `exec` says. -/
theorem protectedRegistersChangeOnlyUnderTheGuard : Obligations.ProtectedRegistersChangeOnlyUnderTheGuard := by
  refine ⟨fun s t ht hne => ?_, fun s t ht hp => ⟨?_, fun b hi => ?_⟩⟩
  · exact (step_to ht).effect.sameProtected.resolve_left hne
  · exact (step_to ht).effect.prot_of_held hp
  · exact (step_to ht).guardAcq_fails hp hi

end Sys2Proof.Machine
end

section
/-! PROOFS. The frequency chain's validity (41_clock.md R140 to R142) and the search of `CLK_SELECT` (R143). -/

namespace Sys2Proof.Machine

/-! ### Validity (R142) -/

section
variable {pr : Params} {fosc p n k f t : Nat}

theorem oscOk_iff : oscOk pr fosc = true ↔ pr.fOscMin ≤ fosc ∧ fosc ≤ pr.fOscMax := by
  simp [oscOk]

theorem tripleOk_iff : tripleOk pr fosc p n k = true ↔
    (1 ≤ p ∧ p ≤ pr.pMax ∧ 1 ≤ n ∧ n ≤ pr.nMax ∧ 1 ≤ k ∧ k ≤ pr.kMax) ∧
    (pr.fVcoMin ≤ fVco fosc p n ∧ fVco fosc p n ≤ pr.fVcoMax) ∧ fPll fosc p n k < 2 ^ 32 := by
  simp only [tripleOk, Bool.and_eq_true, decide_eq_true_eq, and_assoc]

/-- An unused domain asks nothing; a used one has its divider, tolerance and operating range checked. -/
theorem domValid_iff {d : Domain} : domValid pr d f t = true ↔ (t ≠ 0 →
    domDiv f t ≤ pr.dMax ∧ absDiff (domFreq f t) t * 1000000 ≤ pr.clkTolPpm * t ∧
    pr.domMin d ≤ domFreq f t ∧ domFreq f t ≤ pr.domMax d) := by
  simp only [domValid, Bool.or_eq_true, Bool.and_eq_true, decide_eq_true_eq, or_iff_not_imp_left, and_assoc, ne_eq]

theorem domDiv_of_used (h : t ≠ 0) : domDiv f t = max 1 ((2 * f + t) / (2 * t)) := if_neg h

theorem domFreq_of_used (h : t ≠ 0) : domFreq f t = f / max 1 ((2 * f + t) / (2 * t)) := by
  rw [domFreq, if_neg h, domDiv_of_used h]

end

/-- Settles O15: the oscillator, the triple and each domain by its own equivalence. -/
theorem clockValidityIsItsListOfBounds : Obligations.ClockValidityIsItsListOfBounds := by
  intro pr fosc p n k tCore tPeriph tCan f divider good
  have hgood : ∀ d t, domValid pr d f t = true ↔ good t (pr.domMin d) (pr.domMax d) := fun d t =>
    domValid_iff.trans (imp_congr_right fun h => by rw [domFreq_of_used h, domDiv_of_used h, absDiff])
  have hf : fPll fosc p n k = f := rfl
  simp only [clkValid, Bool.and_eq_true, oscOk_iff, tripleOk_iff, hf, hgood, and_assoc, fVco, Params.domMin, Params.domMax]

/-! ### The search (R143) -/

theorem Triple.before_iff {a b : Triple} : a.before b = true ↔ a.err < b.err ∨ (a.err = b.err ∧
    (a.p < b.p ∨ (a.p = b.p ∧ (a.n < b.n ∨ (a.n = b.n ∧ a.k < b.k))))) := by
  simp [Triple.before]

theorem Triple.before_asymm {a b : Triple} (h : a.before b = true) : b.before a = false := by
  rw [Triple.before_iff] at h
  rw [Bool.eq_false_iff, ne_eq, Triple.before_iff]
  omega

/-- The better of two is one of them. -/
theorem Triple.eq_or_mem_of_better {best : Option Triple} {b c : Triple} (h : b ∈ Triple.better best c) :
    b = c ∨ b ∈ best := by
  cases best with
  | none => exact .inl (by simpa [Triple.better, eq_comm] using h)
  | some x =>
    rw [Triple.better] at h
    split at h
    · exact .inl (by simpa [eq_comm] using h)
    · exact .inr h

/-- The better of two is the least where one of them is the least. -/
theorem Triple.better_eq_least {m c : Triple} {best : Option Triple} (hbest : ∀ b ∈ best, b = m ∨ m.before b = true)
    (hc : c = m ∨ m.before c = true) (hm : best = some m ∨ c = m) : Triple.better best c = some m := by
  cases best with
  | none => simpa [Triple.better] using hm
  | some b =>
    rw [Triple.better]
    rcases hm with hb | rfl
    · cases hb
      rcases hc with rfl | hc
      · exact ite_self _
      · simp [Triple.before_asymm hc]
    · rcases hbest b rfl with rfl | hb
      · exact ite_self _
      · exact if_pos hb

/-- The search keeps what is before all else it has seen. -/
theorem Triple.foldl_better_of_least {m : Triple} (l : List Triple) : ∀ best : Option Triple,
    (∀ b ∈ best, b = m ∨ m.before b = true) → (∀ c ∈ l, c = m ∨ m.before c = true) → (best = some m ∨ m ∈ l) →
    l.foldl Triple.better best = some m := by
  induction l with
  | nil => intro best _ _ hm; simpa using hm
  | cons c l ih =>
    intro best hbest hl hm
    have hc := hl c (by simp)
    refine ih _ (fun b hb => ?_) (fun x hx => hl x (by simp [hx])) ?_
    · rcases Triple.eq_or_mem_of_better hb with rfl | hb
      · exact hc
      · exact hbest b hb
    · rcases hm with hm | hm
      · exact .inl (Triple.better_eq_least hbest hc (.inl hm))
      · rcases List.mem_cons.mp hm with hm | hm
        · exact .inl (Triple.better_eq_least hbest hc (.inr hm.symm))
        · exact .inr hm

section
variable {pr : Params} {fosc ftgt p n k : Nat}

/-- The set `S`, each triple with its error. -/
theorem mem_tripleSet {c : Triple} : c ∈ tripleSet pr fosc ftgt ↔
    tripleOk pr fosc c.p c.n c.k = true ∧ c.err = absDiff (fPll fosc c.p c.n c.k) ftgt := by
  obtain ⟨e, p, n, k⟩ := c
  have range : ∀ {x m : Nat}, x ∈ List.range' 1 m ↔ 1 ≤ x ∧ x ≤ m := by
    intro x m; rw [List.mem_range'_1]; omega
  simp only [tripleSet, List.mem_flatMap, List.mem_ite_nil_right, List.mem_map, List.mem_filter, range,
    tripleOk_iff, Triple.mk.injEq, Bool.and_eq_true, decide_eq_true_eq]
  constructor
  · rintro ⟨p', hp, n', hn, hv, k', ⟨hk, hf⟩, rfl, rfl, rfl, rfl⟩
    exact ⟨⟨⟨hp.1, hp.2, hn.1, hn.2, hk⟩, hv, hf⟩, rfl⟩
  · rintro ⟨⟨⟨hp1, hp2, hn1, hn2, hk⟩, hv, hf⟩, rfl⟩
    exact ⟨p, ⟨hp1, hp2⟩, n, ⟨hn1, hn2⟩, hv, k, ⟨hk, hf⟩, rfl, rfl, rfl, rfl⟩

theorem selectTriple_of_empty (h : ∀ p n k : Nat, tripleOk pr fosc p n k = false) : selectTriple pr fosc ftgt = none := by
  have hnil : tripleSet pr fosc ftgt = [] := List.eq_nil_iff_forall_not_mem.mpr fun c hc => by
    exact absurd (mem_tripleSet.mp hc).1 (by simp [h])
  rw [selectTriple, hnil, List.foldl_nil]

theorem selectTriple_of_least (h : leastTriple pr fosc ftgt p n k) :
    selectTriple pr fosc ftgt = some ⟨absDiff (fPll fosc p n k) ftgt, p, n, k⟩ := by
  obtain ⟨hok, hleast⟩ := h
  refine Triple.foldl_better_of_least _ none (by simp) (fun c hc => ?_) (.inr (mem_tripleSet.mpr ⟨hok, rfl⟩))
  obtain ⟨hcok, hcerr⟩ := mem_tripleSet.mp hc
  have := hleast _ _ _ hcok
  obtain ⟨e, p', n', k'⟩ := c
  simp only [Triple.before_iff, Triple.mk.injEq] at hcerr this ⊢
  omega

/-- The three fields of a triple in range as one number (R111). -/
theorem pnkMake_word (hp : p < 2 ^ 8) (hn : n < 2 ^ 8) (hk : k < 2 ^ 8) :
    (pnkMake p n k).word = BitVec.ofNat 32 (p + 2 ^ 8 * n + 2 ^ 16 * k) := by
  apply BitVec.eq_of_toNat_eq
  rw [PllCon.word_toNat, toNat_ofNat_of_lt (by omega)]
  simp only [pnkMake, toNat_ofNat_of_lt hp, toNat_ofNat_of_lt hn, toNat_ofNat_of_lt hk]

/-- A triple in range fits its three fields (R9). -/
theorem pnkMake_word_of_tripleOk (hw : pr.wf) (h : tripleOk pr fosc p n k = true) :
    (pnkMake p n k).word = BitVec.ofNat 32 (p + 2 ^ 8 * n + 2 ^ 16 * k) := by
  obtain ⟨-, -, -, -, -, -, -, -, -, -, ⟨hP, hN, hK⟩, -⟩ := hw
  obtain ⟨⟨-, hp, -, hn, -, hk⟩, -⟩ := tripleOk_iff.mp h
  exact pnkMake_word (by omega) (by omega) (by omega)

/-- The operands `CLK_SELECT` refuses before it searches (R143). -/
theorem clkSelect_refuses_iff :
    (ftgt = 0 || !oscOk pr fosc) = true ↔ ftgt = 0 ∨ fosc < pr.fOscMin ∨ pr.fOscMax < fosc := by
  simp only [Bool.or_eq_true, decide_eq_true_eq, Bool.not_eq_true', Bool.eq_false_iff, ne_eq, oscOk_iff, not_and_or,
    Nat.not_le]

theorem clkSelect_of_refused (h : ftgt = 0 ∨ fosc < pr.fOscMin ∨ pr.fOscMax < fosc) : clkSelect pr fosc ftgt = none :=
  if_pos (clkSelect_refuses_iff.mpr h)

theorem clkSelect_of_empty (h : selectTriple pr fosc ftgt = none) : clkSelect pr fosc ftgt = none := by
  simp only [clkSelect, h, ite_self]

/-- The acceptance test of the triple the search answers. -/
theorem clkSelect_of_found {t : Triple} (hlegal : ¬(ftgt = 0 ∨ fosc < pr.fOscMin ∨ pr.fOscMax < fosc))
    (h : selectTriple pr fosc ftgt = some t) :
    clkSelect pr fosc ftgt = if pr.clkTolPpm * ftgt < t.err * 1000000 then none else some t := by
  simp only [clkSelect, h, if_neg (mt clkSelect_refuses_iff.mp hlegal), gt_iff_lt]

end

section
variable {s : State}

theorem exec_clkSelect_of_none (h : clkSelect s.params s.cur.arg0.toNat s.cur.arg1.toNat = none) :
    exec .clkSelect s = .next (s.coded .clkInvalidTarget) := by
  simp only [exec, execClkSelect, h, State.ret_eq_coded]

theorem exec_clkSelect_of_some {t : Triple} (h : clkSelect s.params s.cur.arg0.toNat s.cur.arg1.toNat = some t) :
    exec .clkSelect s = .next (s.setCur { s.cur with
      res0 := (pnkMake t.p t.n t.k).word, res1 := BitVec.ofNat 32 (fPll s.cur.arg0.toNat t.p t.n t.k), code := .ok }) := by
  simp only [exec, execClkSelect, h, State.ret_eq_coded, State.coded_setCur]

end

/-- Settles O14: the search keeps the least triple of the set, and the acceptance test follows. -/
theorem clkSelectFindsTheLeastTriple : Obligations.ClkSelectFindsTheLeastTriple := by
  intro s hw pr fosc ftgt
  by_cases hrefused : ftgt = 0 ∨ fosc < pr.fOscMin ∨ pr.fOscMax < fosc
  · rw [if_pos hrefused]
    exact exec_clkSelect_of_none (clkSelect_of_refused hrefused)
  rw [if_neg hrefused]
  refine ⟨fun hempty => exec_clkSelect_of_none (clkSelect_of_empty (selectTriple_of_empty hempty)), fun p n k hleast => ?_⟩
  have hsel := clkSelect_of_found hrefused (selectTriple_of_least hleast)
  split
  · next htol =>
    rw [if_pos htol] at hsel
    exact exec_clkSelect_of_none hsel
  · next htol =>
    rw [if_neg htol] at hsel
    rw [exec_clkSelect_of_some hsel, pnkMake_word_of_tripleOk hw hleast.1]

end Sys2Proof.Machine
end

section
/-! PROOFS. The five commands of the Clock Tree that read or program its registers (41_clock.md R144, R145, R147 to R149),
arm by arm. -/

namespace Sys2Proof.Machine

/-! ### `CLK_CONFIGURE` -/

theorem pnkReserved_iff (w : Word) : pnkReserved w = true ↔ 2 ^ 24 ≤ w.toNat := by
  have hw := w.isLt
  have hfield : (w.extractLsb' 24 8).toNat = w.toNat / 2 ^ 24 := by
    rw [BitVec.extractLsb'_toNat, Nat.shiftRight_eq_div_pow]
    omega
  rw [pnkReserved, decide_eq_true_eq, ne_eq, ← BitVec.toNat_inj, hfield]
  show ¬w.toNat / 2 ^ 24 = 0 ↔ _
  omega

@[simp] theorem pnkOf_p_toNat (w : Word) : (pnkOf w).p.toNat = w.toNat % 2 ^ 8 := by
  simp [pnkOf]

@[simp] theorem pnkOf_n_toNat (w : Word) : (pnkOf w).n.toNat = w.toNat / 2 ^ 8 % 2 ^ 8 := by
  simp [pnkOf, Nat.shiftRight_eq_div_pow]

@[simp] theorem pnkOf_k_toNat (w : Word) : (pnkOf w).k.toNat = w.toNat / 2 ^ 16 % 2 ^ 8 := by
  simp [pnkOf, Nat.shiftRight_eq_div_pow]

/-- The register holds the three numbers of the operand. -/
theorem pnkOf_eq_pnkMake (w : Word) :
    pnkOf w = pnkMake (w.toNat % 2 ^ 8) (w.toNat / 2 ^ 8 % 2 ^ 8) (w.toNat / 2 ^ 16 % 2 ^ 8) := by
  rw [pnkMake, ← pnkOf_p_toNat, ← pnkOf_n_toNat, ← pnkOf_k_toNat]
  simp only [BitVec.ofNat_toNat, BitVec.setWidth_eq]

/-- Every register `CLK_CONFIGURE` programs, the guard released at the end (R144, R132). -/
theorem State.setFreqs_applyClock (s : State) (osc : Word) (f : Nat) (pnk : PllCon) (tCore tPeriph tCan : Nat)
    (f0 f1 f2 f3 : Word) :
    ((s.acquire.applyClock osc.toNat f pnk tCore tPeriph tCan).release).setFreqs f0 f1 f2 f3 =
      { s with
        prot := ⟨false, false, .fg⟩, oscfreq := osc, pllstat := ⟨.prescaleSettling, false, true⟩, pllcon := pnk,
        ccucon := ⟨BitVec.ofNat 4 (domDiv f tCore), BitVec.ofNat 4 (domDiv f tPeriph), BitVec.ofNat 4 (domDiv f tCan)⟩,
        fpll := f0, freqCore := f1, freqPeriph := f2, freqCan := f3 } := by
  apply State.ext <;> simp [State.applyClock, State.release]

/-- Settles O16: the checks in the order of the rule, then the registers programmed between the internal acquire and
release, and the wait. -/
theorem clkConfigureProgramsAndWaits : Obligations.ClkConfigureProgramsAndWaits := by
  intro s fosc p n k tCore tPeriph tCan f
  rw [exec, execClkConfigure]
  by_cases hres : 2 ^ 24 ≤ s.cur.arg1.toNat
  · rw [if_pos hres, if_pos ((pnkReserved_iff _).mpr hres)]
    exact ⟨_, s.raiseFault_eq _, s.faultEntry_faulted _⟩
  rw [if_neg hres, if_neg (mt (pnkReserved_iff _).mp hres)]
  by_cases hst : s.pllstat.state ≠ .disabled ∧ s.pllstat.state ≠ .freeRunning
  · rw [if_pos hst, if_pos hst, State.ret_eq_coded]
  rw [if_neg hst, if_neg hst, pnkOf_p_toNat, pnkOf_n_toNat, pnkOf_k_toNat, pnkOf_eq_pnkMake]
  have hcheck : (!clkValid s.params fosc p n k tCore tPeriph tCan) = true ↔
      clkValid s.params fosc p n k tCore tPeriph tCan = false := by rw [Bool.not_eq_true']
  by_cases hvalid : clkValid s.params fosc p n k tCore tPeriph tCan = false
  · rw [if_pos hvalid, if_pos (hcheck.mpr hvalid), State.ret_eq_coded]
  rw [if_neg hvalid, if_neg (mt hcheck.mp hvalid)]
  by_cases hheld : s.prot.held = true
  · rw [if_pos hheld, State.guarded_of_held hheld, State.ret_eq_coded]
  rw [if_neg hheld, State.guarded_of_free (by simpa using hheld), State.setFreqs_applyClock]
  rfl

/-! ### `CLK_WAIT_LOCK` and `CLK_REINIT` -/

/-- Settles O17: each command branches on the conditions the rule names, in their order. -/
theorem clkWaitLockAndReinit : Obligations.ClkWaitLockAndReinit := by
  intro s
  constructor
  · rw [exec, execClkWaitLock]
    by_cases hst : s.pllstat.state = .disabled ∨ s.pllstat.state = .freeRunning
    · rw [if_pos hst, if_pos hst, State.ret_eq_coded]
    · rw [if_neg hst, if_neg hst, State.startWait]
  · rw [exec, execClkReinit]
    by_cases hst : s.pllstat.state ≠ .failed
    · rw [if_pos hst, if_pos hst, State.ret_eq_coded]
    rw [if_neg hst, if_neg hst]
    by_cases hheld : s.prot.held = true
    · rw [if_pos hheld, State.guarded_of_held hheld, State.ret_eq_coded]
    · rw [if_neg hheld, State.guarded_of_free (by simpa using hheld), State.ret_eq_coded]
      rfl

/-! ### The commands with a domain operand (R117) -/

section
variable {s : State}

theorem domainOf_eq_none (h : 2 + s.params.nNode ≤ s.cur.arg0.toNat) : domainOf s.params s.cur.arg0 = none := if_pos h

theorem domainOf_eq_some (h : ¬2 + s.params.nNode ≤ s.cur.arg0.toNat) : domainOf s.params s.cur.arg0 =
    some (if s.cur.arg0.toNat = 0 then .core else if s.cur.arg0.toNat = 1 then .periph else .can) := by
  rw [domainOf, if_neg h]
  split_ifs <;> rfl

theorem exec_clkFreq_of_none (h : domainOf s.params s.cur.arg0 = none) :
    exec .clkFreq s = .next (s.faulted .assertArg) := by
  simp only [exec, execClkFreq, h, State.raiseFault_eq]

theorem exec_clkFreq_of_some {d : Domain} (h : domainOf s.params s.cur.arg0 = some d) :
    exec .clkFreq s = .next (s.setCur { s.cur with res0 := s.freqOf d, code := .ok }) := by
  simp only [exec, execClkFreq, h, State.ret_eq_coded, State.coded_setCur]

theorem exec_clkDomainEnable_of_none (h : domainOf s.params s.cur.arg0 = none) :
    exec .clkDomainEnable s = .next (s.faulted .assertArg) := by
  simp only [exec, execClkDomainEnable, h, State.raiseFault_eq]

theorem exec_clkDomainEnable_of_some {d : Domain} (h : domainOf s.params s.cur.arg0 = some d) :
    exec .clkDomainEnable s = .next
      (if s.pllstat.state ≠ .locked then s.coded .clkNotLocked
       else if s.freqOf d = 0 then s.coded .clkInvalidTarget
       else (s.setClken (s.clken.enable d)).coded .ok) := by
  simp only [exec, execClkDomainEnable, h, State.ret_eq_coded]
  split_ifs <;> rfl

end

/-- Settles O18: an operand without a domain faults; for the others, one case per domain. -/
theorem domainCommandsFollowTheDomain : Obligations.DomainCommandsFollowTheDomain := by
  intro s d freq enabled
  by_cases hd : 2 + s.params.nNode ≤ d
  · rw [if_pos hd]
    have hnone := domainOf_eq_none hd
    exact ⟨⟨_, exec_clkFreq_of_none hnone, s.faultEntry_faulted _⟩,
      ⟨_, exec_clkDomainEnable_of_none hnone, s.faultEntry_faulted _⟩⟩
  rw [if_neg hd, exec_clkFreq_of_some (domainOf_eq_some hd), exec_clkDomainEnable_of_some (domainOf_eq_some hd)]
  have hfreq : s.freqOf (if d = 0 then .core else if d = 1 then .periph else .can) = freq := by
    simp only [freq]
    split_ifs <;> rfl
  have henable : s.clken.enable (if d = 0 then .core else if d = 1 then .periph else .can) = enabled := by
    simp only [enabled]
    by_cases h0 : d = 0
    · simp [h0, ClkEn.enable]
    by_cases h1 : d = 1
    · simp [h1, ClkEn.enable]
    · simp [h0, h1, ClkEn.enable, show 2 ≤ d by omega]
  rw [hfreq, henable]
  exact ⟨rfl, rfl⟩

end Sys2Proof.Machine
end

section
/-! PROOFS. The poll step of a `LOCK` wait (41_clock.md R146), the table of `PLLSTATE` (R150), and how a PLL configuration
ends (R153). -/

namespace Sys2Proof.Machine

variable {s t : State}

/-! ### The poll step (R146) -/

section
variable {b : BankId} {rest : List Input} (h : s.schedule = .waitStep b :: rest) (hb : (s.bank b).busy = true)
  (hk : (s.bank b).waitKind = .lock)
include h hb hk

/-- A poll of a bank that waits for the lock. -/
theorem step_pollLock : step s = (s.moved rest).pollLock b := by
  rw [step_cons h, State.perform, State.eventWaitStep, State.bank_moved, if_pos hb, hk]

/-- Outside `PrescaleSettling` the poll only ends the wait. -/
theorem step_pollLock_of_not_settling (hst : s.pllstat.state ≠ .prescaleSettling) :
    step s = .next ((s.moved rest).setBank b ((s.bank b).ended
      (if s.pllstat.state = .locked then .ok else if s.pllstat.state = .failed then .clkLockTimeout
       else .clkBadState))) := by
  rw [step_pollLock h hb hk, State.pollLock, State.moved_pllstat, ← State.bank_moved s b rest]
  cases hp : s.pllstat.state with
  | prescaleSettling => exact absurd hp hst
  | _ => rfl

variable (hst : s.pllstat.state = .prescaleSettling)
include hst

theorem step_pollLock_of_lockBit (hl : s.pllstat.lockBit = true) :
    step s = .next (((s.moved rest).setPll { s.pllstat with state := .locked }).setBank b ((s.bank b).ended .ok)) := by
  rw [step_pollLock h hb hk, State.pollLock, State.moved_pllstat, hst]
  dsimp only
  rw [if_pos hl, State.finish, State.bank_setPll, State.bank_moved]

theorem step_pollLock_of_bound (hl : s.pllstat.lockBit = false) (hc : (s.bank b).waitCnt = (s.bank b).waitLim) :
    step s = .next
      (((s.moved rest).setPll { s.pllstat with state := .failed }).setBank b ((s.bank b).ended .clkLockTimeout)) := by
  rw [step_pollLock h hb hk, State.pollLock, State.moved_pllstat, hst]
  dsimp only
  rw [if_neg (by simp [hl]), State.bank_moved, if_pos hc, State.finish, State.bank_setPll, State.bank_moved]

theorem step_pollLock_of_below (hl : s.pllstat.lockBit = false) (hc : (s.bank b).waitCnt ≠ (s.bank b).waitLim) :
    step s = .next ((s.moved rest).setBank b { s.bank b with waitCnt := (s.bank b).waitCnt + 1 }) := by
  rw [step_pollLock h hb hk, State.pollLock, State.moved_pllstat, hst]
  dsimp only
  rw [if_neg (by simp [hl]), State.bank_moved, if_neg hc, State.countPoll, State.bank_moved]

end

/-- Settles O35: one lemma per outcome of the poll, the lock bit tested before the bound. -/
theorem lockPollDecidesInOrder : Obligations.LockPollDecidesInOrder := by
  intro s b rest h hb hk bk s0 done
  by_cases hst : s.pllstat.state = .prescaleSettling
  · rw [if_neg (by simp [hst]), if_neg (by simp [hst]), if_pos hst]
    by_cases hl : s.pllstat.lockBit = true
    · rw [if_pos hl, step_pollLock_of_lockBit h hb hk hst hl]
    · rw [if_neg hl]
      have hl' : s.pllstat.lockBit = false := by simpa using hl
      by_cases hc : bk.waitCnt = bk.waitLim
      · rw [if_pos hc, step_pollLock_of_bound h hb hk hst hl' hc]
      · rw [if_neg hc, step_pollLock_of_below h hb hk hst hl' hc]
  · rw [step_pollLock_of_not_settling h hb hk hst, if_neg hst]
    split_ifs <;> rfl

/-! ### The table of `PLLSTATE` (R150) -/

/-- The commands that move `PLLSTATE`. -/
theorem State.Succeeds.pllState_moves {i : Instr} (h : s.Succeeds i t) (hne : t.pllstat.state ≠ s.pllstat.state) :
    (i = .clkConfigure ∧ (s.pllstat.state = .disabled ∨ s.pllstat.state = .freeRunning) ∧
      t.pllstat.state = .prescaleSettling) ∨
    (i = .clkReinit ∧ s.pllstat.state = .failed ∧ t.pllstat.state = .disabled) := by
  cases h with
  | clkConfigure _ _ _ _ _ _ _ _ _ _ hst => exact .inl ⟨rfl, hst, by simp [State.applyClock]⟩
  | clkReinit hst => exact .inr ⟨rfl, hst, by simp⟩
  | _ => simp at hne

/-- The events that move `PLLSTATE`: reset, and a poll that finds the lock bit set or the bound reached. -/
theorem State.EventTo.pllState_moves {a : Input} (h : s.EventTo a t) (hne : t.pllstat.state ≠ s.pllstat.state) :
    (a = .reset ∧ t.pllstat.state = .disabled) ∨
    ∃ b, a = .waitStep b ∧ (s.bank b).waitKind = .lock ∧ s.pllstat.state = .prescaleSettling ∧
      ((s.pllstat.lockBit = true ∧ t.pllstat.state = .locked) ∨
        (s.pllstat.lockBit = false ∧ (s.bank b).waitCnt = (s.bank b).waitLim ∧ t.pllstat.state = .failed)) := by
  cases h with
  | reset => exact .inl ⟨rfl, rfl⟩
  | locked b _ hk hst hl => exact .inr ⟨b, rfl, hk, hst, .inl ⟨hl, by simp⟩⟩
  | lockTimeout b _ hk hst hl hc => exact .inr ⟨b, rfl, hk, hst, .inr ⟨hl, hc, by simp⟩⟩
  | _ => simp at hne

/-- Settles O50: by the effect of the step; a fault entry and an error return leave the PLL alone. -/
theorem pllStateFollowsItsTable : Obligations.PllStateFollowsItsTable := by
  intro s t ht hne
  cases (step_to ht).effect with
  | quiet t hs => exact absurd (congrArg _ hs.pllstat) hne
  | fault => simp at hne
  | success b w rest i hi _ _ t hq =>
    have hnext := s.runsNext_of_nextInstr hi
    rcases hq.pllState_moves (by simpa using hne) with ⟨rfl, hst, ht⟩ | ⟨rfl, hst, ht⟩
    · exact .inr (.inl ⟨hnext, by simpa using hst, ht⟩)
    · exact .inr (.inr (.inl ⟨hnext, by simpa using hst, ht⟩))
  | event a rest ha t he =>
    rcases he.pllState_moves (by simpa using hne) with ⟨rfl, ht⟩ | ⟨b, rfl, hk, hst, hto⟩
    · exact .inl ⟨ha, ht⟩
    · exact .inr (.inr (.inr ⟨b, ha, by simpa using hk, by simpa using hst, by simpa using hto⟩))

/-! ### The end of a configuration (R153) -/

/-- Bank `b` waits for the lock of a settling PLL whose lock bit is `lock`. -/
structure State.AwaitsLock (s : State) (b : BankId) (lock : Bool) : Prop where
  busy : (s.bank b).busy = true
  kind : (s.bank b).waitKind = .lock
  settling : s.pllstat.state = .prescaleSettling
  lockBit : s.pllstat.lockBit = lock
  le : (s.bank b).waitCnt ≤ (s.bank b).waitLim

/-- The wait of bank `b` has ended, in `Locked` with `OK` or in `Failed` with `CLK_LOCK_TIMEOUT`. -/
def State.LockEnded (s : State) (b : BankId) (locked : Prop) [Decidable locked] : Prop :=
  (s.bank b).busy = false ∧
  if locked then s.pllstat.state = .locked ∧ (s.bank b).code = .ok
  else s.pllstat.state = .failed ∧ (s.bank b).code = .clkLockTimeout

section
variable {b : BankId} {rest : List Input}

theorem State.AwaitsLock.step_lockSet (h : s.AwaitsLock b false) (hs : s.schedule = .lockSet :: rest) :
    ∃ u, step s = .next u ∧ u.schedule = rest ∧ u.AwaitsLock b true := by
  refine ⟨(s.moved rest).setPll { s.pllstat with lockBit := true }, ?_, by simp, ?_⟩
  · rw [step_cons hs, State.perform, State.eventLockSet, if_pos (by simpa using ⟨h.settling, h.lockBit⟩),
      State.moved_pllstat]
  · exact ⟨by simpa using h.busy, by simpa using h.kind, by simpa using h.settling, by simp, by simpa using h.le⟩

/-- The first poll after the lock bit ends the wait in `Locked`. -/
theorem State.AwaitsLock.step_poll_locked (h : s.AwaitsLock b true) (hs : s.schedule = .waitStep b :: rest) :
    ∃ u, step s = .next u ∧ (u.bank b).busy = false ∧ u.pllstat.state = .locked ∧ (u.bank b).code = .ok :=
  ⟨_, step_pollLock_of_lockBit hs h.busy h.kind h.settling h.lockBit, by simp⟩

theorem State.AwaitsLock.step_poll_failed (h : s.AwaitsLock b false) (hs : s.schedule = .waitStep b :: rest)
    (hc : (s.bank b).waitCnt = (s.bank b).waitLim) :
    ∃ u, step s = .next u ∧ (u.bank b).busy = false ∧ u.pllstat.state = .failed ∧
      (u.bank b).code = .clkLockTimeout :=
  ⟨_, step_pollLock_of_bound hs h.busy h.kind h.settling h.lockBit hc, by simp⟩

theorem State.AwaitsLock.step_poll_continues (h : s.AwaitsLock b false) (hs : s.schedule = .waitStep b :: rest)
    (hc : (s.bank b).waitCnt ≠ (s.bank b).waitLim) :
    ∃ u, step s = .next u ∧ u.schedule = rest ∧ u.AwaitsLock b false ∧ s.WaitContinues u b 1 := by
  have hstep := step_pollLock_of_below hs h.busy h.kind h.settling h.lockBit hc
  have hw := (step_to hstep).waitContinues h.busy (by simpa using h.busy) h.le
  rw [State.pollsWithin, hs, List.take_succ_cons, List.take_zero, List.count_singleton_self] at hw
  exact ⟨_, hstep, by simp, ⟨by simpa using h.busy, by simpa using h.kind, by simpa using h.settling,
    by simpa using h.lockBit, hw.le⟩, hw⟩

end

/-- With at most one `LOCK_SET` and more polls than the bound leaves, the wait ends at one of them. -/
theorem State.AwaitsLock.ends {b : BankId} (sched : List Input) : ∀ s : State, s.AwaitsLock b false →
    s.schedule = sched → (∀ a ∈ sched, a = .lockSet ∨ a = .waitStep b) → sched.count .lockSet ≤ 1 →
    (s.bank b).waitLim.toNat < (s.bank b).waitCnt.toNat + sched.count (.waitStep b) →
    ∃ (j : Nat) (u : State), j ≤ sched.length ∧ Host.Core.run core j s = .next u ∧
      u.LockEnded b (.lockSet ∈ sched.take j) := by
  induction sched with
  | nil =>
    intro s h _ _ _ hpolls
    exact absurd hpolls (Nat.not_lt.mpr h.le)
  | cons a rest ih =>
    intro s h hs honly hone hpolls
    rcases honly a (by simp) with rfl | rfl
    · obtain ⟨u, hstep, hus, hu⟩ := h.step_lockSet hs
      cases rest with
      | nil => exact absurd hpolls (Nat.not_lt.mpr h.le)
      | cons c rest =>
        have hcne : c ≠ .lockSet := by rintro rfl; simp at hone
        obtain rfl := (honly c (by simp)).resolve_left hcne
        obtain ⟨v, hstep', hbusy, hend⟩ := hu.step_poll_locked hus
        exact ⟨2, v, by simp, (core_run_succ 1 hstep).trans (core_run_succ 0 hstep'), hbusy, by simpa using hend⟩
    · by_cases hc : (s.bank b).waitCnt = (s.bank b).waitLim
      · obtain ⟨u, hstep, hbusy, hend⟩ := h.step_poll_failed hs hc
        exact ⟨1, u, by simp, core_run_succ 0 hstep, hbusy, by simpa using hend⟩
      · obtain ⟨u, hstep, hus, hu, hw⟩ := h.step_poll_continues hs hc
        have hmore : (u.bank b).waitLim.toNat < (u.bank b).waitCnt.toNat + rest.count (.waitStep b) := by
          rw [List.count_cons_self] at hpolls
          rw [hw.lim, hw.cnt]
          omega
        obtain ⟨j, v, hj, hrun, hend⟩ := ih u hu hus (fun a ha => honly a (by simp [ha])) (by simpa using hone) hmore
        exact ⟨j + 1, v, by simpa using hj, (core_run_succ j hstep).trans hrun, by simpa [State.LockEnded] using hend⟩

/-- A `CLK_CONFIGURE` that leaves its bank busy has started the wait for the lock. -/
theorem awaitsLock_of_exec_clkConfigure (h : exec .clkConfigure s = .next t) (hs : s.cur.busy = false)
    (ht : t.cur.busy = true) :
    t.AwaitsLock s.issuer false ∧ (t.bank s.issuer).waitLim = s.params.pllLockMax ∧
      (t.bank s.issuer).waitCnt = 0 := by
  rcases exec_cases h with ⟨c, rfl⟩ | ⟨c, -, rfl⟩ | hq
  · simp [State.cur] at ht
  · simp [hs] at ht
  · cases hq with
    | clkConfigure =>
      refine ⟨⟨?_, ?_, ?_, ?_, ?_⟩, ?_, ?_⟩ <;> simp [State.bank_setCur, State.applyClock, BitVec.le_def]

/-- Settles O59, by induction on the schedule: each poll before the lock bit counts one up, and the bound ends the wait. -/
theorem pllConfigurationEndsLockedOrFailed : Obligations.PllConfigurationEndsLockedOrFailed := by
  intro s t sched h hs ht hsched honly hone hpolls
  obtain ⟨hwait, hlim, hcnt⟩ := awaitsLock_of_exec_clkConfigure h hs ht
  exact hwait.ends sched t hsched honly hone (by rw [hlim, hcnt]; simpa using hpolls)

end Sys2Proof.Machine
end

section
/-! PROOFS. The bit-timing search (42_bittiming.md R174 to R181): the candidate it keeps, what `bt_compute` returns of it,
and the answer of `BT_COMPUTE`. -/

namespace Sys2Proof.Machine

/-! ### The candidates and their order (R174 to R176) -/

/-- The candidate of a prescaler and a split. -/
def btCandOf (clk br sp brp tseg1 : Nat) : BtCand :=
  ⟨brp, clk / (brp * br), tseg1, clk / (brp * br) - 1 - tseg1, btDev sp (clk / (brp * br)) tseg1⟩

/-- The order in which the search visits its candidates (R176). -/
def BtCand.Before (a b : BtCand) : Prop := a.brp < b.brp ∨ (a.brp = b.brp ∧ a.tseg1 < b.tseg1)

/-- The deviation of a candidate, per mille (R175). -/
def BtCand.dev (c : BtCand) : ℚ := c.d / c.nq

section
variable {pr : Params} {clk br sp brp tseg1 : Nat} {c : BtCand}

theorem btFeasible_iff : btFeasible pr clk br brp = true ↔
    clk % (brp * br) = 0 ∧ pr.nqMin ≤ clk / (brp * br) ∧ clk / (brp * br) ≤ pr.nqMax := by
  simp only [btFeasible, Bool.and_eq_true, decide_eq_true_eq, and_assoc]

theorem mem_btSplits {nq : Nat} : tseg1 ∈ btSplits pr nq ↔
    (1 ≤ tseg1 ∧ nq ≤ tseg1 + 1 + pr.tseg2Max) ∧ (tseg1 ≤ pr.tseg1Max ∧ tseg1 + 2 ≤ nq) := by
  simp only [btSplits, List.mem_range'_1]
  omega

theorem mem_btCandidates : c ∈ btCandidates pr clk br sp ↔
    ∃ brp tseg1, btCandidate pr clk br brp tseg1 ∧ btCandOf clk br sp brp tseg1 = c := by
  simp only [btCandidates, List.mem_flatMap, List.mem_ite_nil_right, List.mem_map, List.mem_range'_1, btFeasible_iff,
    mem_btSplits, btCandidate, Nat.lt_one_add_iff]
  constructor
  · rintro ⟨brp, hbrp, ⟨hdiv, hnq⟩, tseg1, hsplit, rfl⟩
    exact ⟨brp, tseg1, ⟨hbrp, hdiv, hnq, hsplit⟩, rfl⟩
  · rintro ⟨brp, tseg1, ⟨hbrp, hdiv, hnq, hsplit⟩, rfl⟩
    exact ⟨brp, hbrp, ⟨hdiv, hnq⟩, tseg1, hsplit, rfl⟩

theorem btCandidates_nq_pos (h : c ∈ btCandidates pr clk br sp) : 0 < c.nq := by
  have := btCandidates_bounds h
  omega

/-- The candidates are listed by prescaler, then by `tseg1` (R176). -/
theorem btCandidates_pairwise_before : (btCandidates pr clk br sp).Pairwise BtCand.Before := by
  refine List.pairwise_flatMap.mpr ⟨fun brp _ => ?_, ?_⟩
  · split
    · exact List.pairwise_map.mpr ((List.pairwise_lt_range' _).imp fun hlt => .inr ⟨rfl, hlt⟩)
    · exact List.Pairwise.nil
  · refine (List.pairwise_lt_range' _).imp fun hlt a ha b hb => .inl ?_
    simp only [List.mem_ite_nil_right, List.mem_map] at ha hb
    obtain ⟨-, _, -, rfl⟩ := ha
    obtain ⟨-, _, -, rfl⟩ := hb
    exact hlt

end

/-- In a list in order, the element at the smaller index comes before the other. -/
theorem rel_of_idxOf_lt {α : Type} [DecidableEq α] {R : α → α → Prop} {l : List α} {a b : α} (hl : l.Pairwise R)
    (hb : b ∈ l) (h : l.idxOf a < l.idxOf b) : R a b := by
  have hbl := List.idxOf_lt_length_of_mem hb
  simpa using List.pairwise_iff_getElem.mp hl _ _ (h.trans hbl) hbl h

/-! ### The search is the first minimum of the deviation (R176) -/

section
variable {a b : BtCand}

theorem BtCand.dev_lt_dev_iff (ha : 0 < a.nq) (hb : 0 < b.nq) : a.dev < b.dev ↔ a.d * b.nq < b.d * a.nq := by
  rw [dev, dev, div_lt_div_iff₀ (by exact_mod_cast ha) (by exact_mod_cast hb)]
  exact_mod_cast Iff.rfl

theorem BtCand.dev_le_dev_iff (ha : 0 < a.nq) (hb : 0 < b.nq) : a.dev ≤ b.dev ↔ a.d * b.nq ≤ b.d * a.nq := by
  rw [← not_lt, dev_lt_dev_iff hb ha, not_lt]

end

/-- On candidates with quanta, the fold of R176 is the library's first minimum. -/
theorem foldl_better_eq_argAux (l : List BtCand) : ∀ best : Option BtCand, (∀ b ∈ best, 0 < b.nq) →
    (∀ c ∈ l, 0 < c.nq) → l.foldl BtCand.better best = l.foldl (List.argAux fun a b => a.dev < b.dev) best := by
  induction l with
  | nil => exact fun _ _ _ => rfl
  | cons c l ih =>
    intro best hbest hl
    have hc := hl c (by simp)
    have hl' : ∀ x ∈ l, 0 < x.nq := fun x hx => hl x (by simp [hx])
    cases best with
    | none => exact ih (some c) (by simpa using hc) hl'
    | some b =>
      have hb := hbest b rfl
      simp only [List.foldl_cons, BtCand.better, List.argAux, BtCand.dev_lt_dev_iff hc hb]
      split
      · exact ih (some c) (by simpa using hc) hl'
      · exact ih (some b) hbest hl'

theorem btSearch_eq_argmin (pr : Params) (clk br sp : Nat) :
    btSearch pr clk br sp = (btCandidates pr clk br sp).argmin BtCand.dev :=
  foldl_better_eq_argAux _ none (by simp) fun _ => btCandidates_nq_pos

section
variable {pr : Params} {clk br sp brp tseg1 : Nat} {c : BtCand}

theorem btSearch_of_empty (h : ∀ brp tseg1 : Nat, ¬btCandidate pr clk br brp tseg1) : btSearch pr clk br sp = none := by
  rw [btSearch_eq_argmin, List.argmin_eq_none, List.eq_nil_iff_forall_not_mem]
  intro c hc
  obtain ⟨brp, tseg1, hcand, -⟩ := mem_btCandidates.mp hc
  exact h brp tseg1 hcand

theorem btSearch_of_best (h : btBest pr clk br sp brp tseg1) :
    btSearch pr clk br sp = some (btCandOf clk br sp brp tseg1) := by
  obtain ⟨hcand, hbest⟩ := h
  have hmem := mem_btCandidates (sp := sp).mpr ⟨brp, tseg1, hcand, rfl⟩
  have hpos := btCandidates_nq_pos hmem
  rw [btSearch_eq_argmin, List.argmin_eq_some_iff]
  refine ⟨hmem, fun a ha => ?_, fun a ha hle => not_lt.mp fun hidx => ?_⟩
  · rw [BtCand.dev_le_dev_iff hpos (btCandidates_nq_pos ha)]
    obtain ⟨brp', tseg1', hcand', rfl⟩ := mem_btCandidates.mp ha
    rcases hbest brp' tseg1' hcand' with hlt | ⟨heq, -⟩
    · exact hlt.le
    · exact heq.le
  · have hbefore := rel_of_idxOf_lt btCandidates_pairwise_before hmem hidx
    rw [BtCand.dev_le_dev_iff (btCandidates_nq_pos ha) hpos] at hle
    obtain ⟨brp', tseg1', hcand', rfl⟩ := mem_btCandidates.mp ha
    simp only [BtCand.Before, btCandOf] at hbefore hle
    rcases hbest brp' tseg1' hcand' with hlt | ⟨-, hfirst⟩ <;> omega

/-- No candidate deviates less than the one the search keeps. -/
theorem btSearch_least (h : btSearch pr clk br sp = some c) (hcand : btCandidate pr clk br brp tseg1) :
    c.d * (clk / (brp * br)) ≤ btDev sp (clk / (brp * br)) tseg1 * c.nq := by
  have hmem := mem_btCandidates (sp := sp).mpr ⟨brp, tseg1, hcand, rfl⟩
  have hpos := btCandidates_nq_pos (btSearch_mem h)
  rw [btSearch_eq_argmin] at h
  exact (BtCand.dev_le_dev_iff hpos (btCandidates_nq_pos hmem)).mp (List.le_of_mem_argmin hmem h)

/-! ### The timing of a candidate (R173, R177, R178) -/

/-- The division of R174 is exact, so the realised bit rate is the one asked for (R178). -/
theorem btCandidate_exact (h : btCandidate pr clk br brp tseg1) : brp * (clk / (brp * br)) * br = clk := by
  obtain ⟨-, hdiv, -, -⟩ := h
  rw [Nat.mul_right_comm]
  exact Nat.mul_div_cancel' (Nat.dvd_of_mod_eq_zero hdiv)

theorem btCandidate_bitRate (h : btCandidate pr clk br brp tseg1) : clk / (brp * (clk / (brp * br))) = br := by
  have hexact := btCandidate_exact h
  obtain ⟨⟨hbrp, -⟩, -, -, -, -, hnq⟩ := h
  exact Nat.div_eq_of_eq_mul_right (Nat.mul_pos hbrp (by omega)) hexact.symm

/-- A candidate with the widest legal jump width is within the hardware's bounds (R173). -/
theorem btCandidate_timingOk (hw : pr.wf) (h : btCandidate pr clk br brp tseg1) :
    timingOk pr brp tseg1 (clk / (brp * br) - 1 - tseg1)
      (min (min tseg1 (clk / (brp * br) - 1 - tseg1)) pr.sjwMax) := by
  obtain ⟨-, -, -, hsjw, -⟩ := hw
  obtain ⟨hbrp, -, hnq, ⟨ht1, ht2⟩, ht1', ht2'⟩ := h
  refine ⟨?_, ?_, ?_, ?_, hbrp⟩ <;> omega

end

/-- Each field of a timing within the bounds fits its place in the word (R9, R116). -/
theorem BtResult.btr_word {pr : Params} {r : BtResult} (hw : pr.wf)
    (h : timingOk pr r.brp r.tseg1 r.tseg2 r.sjw) :
    r.btr.word = BitVec.ofNat 32 (r.brp + 2 ^ 16 * r.tseg1 + 2 ^ 24 * r.tseg2 + 2 ^ 28 * r.sjw) := by
  obtain ⟨-, -, -, -, hT1, hT2, hS, hB, -⟩ := hw
  obtain ⟨-, ⟨-, h1⟩, ⟨-, h2⟩, ⟨-, hs⟩, -, hb⟩ := h
  apply BitVec.eq_of_toNat_eq
  rw [Btr.word_toNat, toNat_ofNat_of_lt (by omega)]
  simp only [BtResult.btr]
  rw [toNat_ofNat_of_lt (by omega), toNat_ofNat_of_lt (by omega), toNat_ofNat_of_lt (by omega),
    toNat_ofNat_of_lt (by omega)]

/-! ### `bt_compute` (R179) -/

/-- The result `bt_compute` makes of the candidate the search keeps (R178). -/
def BtCand.result (pr : Params) (clk : Nat) (c : BtCand) : BtResult :=
  ⟨c.brp, c.tseg1, c.tseg2, btSjw pr c, c.nq, 1000 * (1 + c.tseg1) / c.nq, clk / (c.brp * c.nq)⟩

section
variable {pr : Params} {clk br sp tol brp tseg1 : Nat}

theorem btCompute_of_tooLow (h : clk < pr.nqMin * br) : btCompute pr clk br sp tol = .error .btFreqTooLow := if_pos h

theorem btCompute_of_tooHigh (hlow : ¬clk < pr.nqMin * br) (h : pr.brpMax * pr.nqMax * br < clk) :
    btCompute pr clk br sp tol = .error .btFreqTooHigh := by
  rw [btCompute, if_neg hlow, if_pos h]

theorem btCompute_of_none (hlow : ¬clk < pr.nqMin * br) (hhigh : ¬pr.brpMax * pr.nqMax * br < clk)
    (h : btSearch pr clk br sp = none) : btCompute pr clk br sp tol = .error .btUnachievable := by
  rw [btCompute, if_neg hlow, if_neg hhigh, h]

theorem btCompute_of_some {c : BtCand} (hlow : ¬clk < pr.nqMin * br) (hhigh : ¬pr.brpMax * pr.nqMax * br < clk)
    (h : btSearch pr clk br sp = some c) : btCompute pr clk br sp tol =
      if tol * c.nq < c.d then .error .btUnachievable else .ok (c.result pr clk) := by
  rw [btCompute, if_neg hlow, if_neg hhigh, h]
  rfl

/-- Every outcome of `bt_compute`: one of its three errors, or the kept candidate within the tolerance. -/
theorem btCompute_cases (pr : Params) (clk br sp tol : Nat) :
    (∃ e, btCompute pr clk br sp tol = .error e ∧ (e = .btFreqTooLow ∨ e = .btFreqTooHigh ∨ e = .btUnachievable)) ∨
    ∃ c, btSearch pr clk br sp = some c ∧ c.d ≤ tol * c.nq ∧
      btCompute pr clk br sp tol = .ok (c.result pr clk) := by
  by_cases hlow : clk < pr.nqMin * br
  · exact .inl ⟨_, btCompute_of_tooLow hlow, by simp⟩
  by_cases hhigh : pr.brpMax * pr.nqMax * br < clk
  · exact .inl ⟨_, btCompute_of_tooHigh hlow hhigh, by simp⟩
  cases h : btSearch pr clk br sp with
  | none => exact .inl ⟨_, btCompute_of_none hlow hhigh h, by simp⟩
  | some c =>
    have hsome := btCompute_of_some (tol := tol) hlow hhigh h
    by_cases htol : tol * c.nq < c.d
    · exact .inl ⟨_, hsome.trans (if_pos htol), by simp⟩
    · exact .inr ⟨c, rfl, not_lt.mp htol, hsome.trans (if_neg htol)⟩

end

/-- Settles O19: the search is the first minimum of the deviation over the candidates in order, and the division is
exact. -/
theorem bitTimingSearchKeepsTheFirstBest : Obligations.BitTimingSearchKeepsTheFirstBest := by
  intro pr clk br sp tol _ _ hlow hhigh
  refine ⟨fun hempty => btCompute_of_none hlow.not_gt hhigh.not_gt (btSearch_of_empty hempty), ?_⟩
  intro brp tseg1 hbest nq tseg2
  have hok := btCompute_of_some (tol := tol) hlow.not_gt hhigh.not_gt (btSearch_of_best hbest)
  simp only [BtCand.result, btCandOf, btCandidate_bitRate hbest.1] at hok
  split
  · next htol => exact hok.trans (if_pos htol)
  · next htol => exact hok.trans (if_neg htol)

/-! ### `BT_COMPUTE` (R179) -/

section
variable {s : State}

theorem btArgBad_iff {br sp : Nat} : btArgBad br sp = true ↔ br = 0 ∨ 1000 < sp := by
  simp only [btArgBad, Bool.or_eq_true, decide_eq_true_eq]

theorem exec_btCompute_of_bad (h : s.cur.arg1.toNat = 0 ∨ 1000 < s.cur.arg2.toNat) :
    exec .btCompute s = .next (s.faulted .assertArg) :=
  (if_pos (btArgBad_iff.mpr h)).trans (s.raiseFault_eq _)

theorem exec_btCompute_of_error {c : ResultCode} (hargs : ¬(s.cur.arg1.toNat = 0 ∨ 1000 < s.cur.arg2.toNat))
    (h : btCompute s.params s.cur.arg0.toNat s.cur.arg1.toNat s.cur.arg2.toNat s.cur.arg3.toNat = .error c) :
    exec .btCompute s = .next (s.coded c) := by
  rw [exec, execBtCompute, if_neg (mt btArgBad_iff.mp hargs)]
  simp only [h, State.ret_eq_coded]

theorem exec_btCompute_of_ok {r : BtResult} (hargs : ¬(s.cur.arg1.toNat = 0 ∨ 1000 < s.cur.arg2.toNat))
    (h : btCompute s.params s.cur.arg0.toNat s.cur.arg1.toNat s.cur.arg2.toNat s.cur.arg3.toNat = .ok r) :
    exec .btCompute s = .next (s.setCur { s.cur.setBtResult r with code := .ok }) := by
  rw [exec, execBtCompute, if_neg (mt btArgBad_iff.mp hargs)]
  simp only [h, State.ret_eq_coded, State.coded_setCur]

end

/-- Settles O20: the checks in the order of the rule, then the result of the candidate the search keeps. -/
theorem btComputeAnswersTheSearch : Obligations.BtComputeAnswersTheSearch := by
  intro s hw clk br sp tol
  by_cases hargs : br = 0 ∨ 1000 < sp
  · rw [if_pos hargs]
    exact ⟨_, exec_btCompute_of_bad hargs, s.faultEntry_faulted _⟩
  rw [if_neg hargs]
  by_cases hlow : clk < s.params.nqMin * br
  · rw [if_pos hlow]
    exact exec_btCompute_of_error hargs (btCompute_of_tooLow hlow)
  rw [if_neg hlow]
  by_cases hhigh : s.params.brpMax * s.params.nqMax * br < clk
  · rw [if_pos hhigh]
    exact exec_btCompute_of_error hargs (btCompute_of_tooHigh hlow hhigh)
  rw [if_neg hhigh]
  refine ⟨fun hempty => exec_btCompute_of_error hargs (btCompute_of_none hlow hhigh (btSearch_of_empty hempty)), ?_⟩
  intro brp tseg1 hbest nq tseg2
  have hfound := btCompute_of_some (tol := tol) hlow hhigh (btSearch_of_best hbest)
  split
  · next htol => exact exec_btCompute_of_error hargs (hfound.trans (if_pos htol))
  · next htol =>
    rw [exec_btCompute_of_ok hargs (hfound.trans (if_neg htol)), Bank.setBtResult,
      BtResult.btr_word hw (btCandidate_timingOk hw hbest.1)]
    rfl

/-- Settles O21: a timing returned is that of a candidate, within the tolerance, that no other betters. -/
theorem bitTimingResultsAreSound : Obligations.BitTimingResultsAreSound := by
  intro pr clk br sp tol
  rcases btCompute_cases pr clk br sp tol with ⟨e, herr, hcode⟩ | ⟨c, hsearch, htol, hok⟩
  · rw [herr]
    exact ⟨fun r _ _ h => by simp at h, fun c h => Except.error.inj h ▸ hcode⟩
  · refine ⟨fun r hw _ h => ?_, fun e h => by simp [hok] at h⟩
    have hvalid := btCompute_valid hw h
    obtain rfl := Except.ok.inj (hok.symm.trans h)
    have hleast := fun brp' tseg1' => btSearch_least (brp := brp') (tseg1 := tseg1') hsearch
    obtain ⟨brp, tseg1, hcand, rfl⟩ := mem_btCandidates.mp (btSearch_mem hsearch)
    have hnq : clk / (brp * br) = 1 + tseg1 + (clk / (brp * br) - 1 - tseg1) := by
      obtain ⟨-, -, -, -, -, hsplit⟩ := hcand
      omega
    exact ⟨htol, btCandidate_exact hcand, btCandidate_bitRate hcand, hnq, btCandidate_timingOk hw hcand, hvalid, hleast⟩

end Sys2Proof.Machine
end

section
/-! PROOFS. The commands of the Mailbox Pool (43_mailbox.md R191 to R193), arm by arm, and the acceptance of a frame by an
object (R194). -/

namespace Sys2Proof.Machine

variable {s : State} {n : NodeId}

/-! ### The frame of a node's command -/

/-- A command of one node that succeeds leaves the rest of the block alone; `NODE_CONFIGURE` aside, which ends with the guard
released. -/
theorem State.Succeeds.nodeFrame {t : State} {i : Instr} (h : s.Succeeds i t) (hi : i.node = some n)
    (hc : i ≠ .nodeConfigure n) : s.nodeFrame t n := by
  refine ⟨?_, h.bank_other (BankId.other_ne _), fun k hk => h.node_eq (by simpa [hi] using Ne.symm hk)⟩
  cases h with
  | nodeConfigure => cases hi; exact absurd rfl hc
  | _ => cases hi <;> ext <;> simp

/-! ### `MBX_READ` (R193) -/

/-- Settles O26: the one check of the rule on the index, then the six words. -/
theorem mbxReadReturnsTheSixWords : Obligations.MbxReadReturnsTheSixWords := by
  intro n s m
  have hcond : (s.params.nMbx ≤ m || !bitmapGet (s.node n).nalloc m) = true ↔
      s.params.nMbx ≤ m ∨ (s.node n).nalloc.getLsbD m = false := by simp [bitmapGet]
  rw [exec, execMbxRead]
  by_cases h : s.params.nMbx ≤ m ∨ (s.node n).nalloc.getLsbD m = false
  · rw [if_pos h, if_pos (hcond.mpr h)]
    exact ⟨_, s.raiseFault_eq _, s.faultEntry_faulted _⟩
  · rw [if_neg h, if_neg (mt hcond.mp h), State.ret_eq_coded, State.coded_setCur]

/-! ### `MBX_RELEASE_ALL` (R192) -/

/-- Settles O25: outside `Init` an error return, else the release of the node's pool. -/
theorem mbxReleaseAllEmptiesThePool : Obligations.MbxReleaseAllEmptiesThePool := by
  intro n s hw hp
  rw [exec, execMbxReleaseAll, State.ret_eq_coded, State.ret_eq_coded]
  by_cases hst : (s.node n).state ≠ .init
  · rw [if_pos hst, if_pos hst]
  rw [if_neg hst, if_neg hst]
  have h : s.Succeeds (.mbxReleaseAll n) ((s.releaseAll n).coded .ok) := .mbxReleaseAll n (not_not.mp hst)
  refine ⟨_, rfl, h.nodeFrame rfl (by simp), by simp, by simp [State.node_releaseAll], h.mbx_wf hw, fun a ha => ?_,
    fun m hm w hw6 => ?_⟩
  · rw [State.coded_mbx, s.read_releaseAll_other n a ha]
  · rw [State.coded_mbxRead, s.mbxRead_releaseAll n n m w hw hp (by omega) (by omega), if_pos ⟨rfl, hm, hw6⟩]

/-! ### `MBX_ALLOC` (R191) -/

/-- The high field of a word is nonzero exactly from the field's first value on. -/
theorem extractLsb'_high_ne_zero_iff (w : Word) {k len : Nat} (h : k + len = 32) :
    w.extractLsb' k len ≠ 0 ↔ 2 ^ k ≤ w.toNat := by
  have hlt : w.toNat / 2 ^ k < 2 ^ len := by
    rw [Nat.div_lt_iff_lt_mul (by positivity), ← Nat.pow_add, Nat.add_comm, h]
    exact w.isLt
  rw [ne_eq, ← BitVec.toNat_inj, BitVec.extractLsb'_toNat, Nat.shiftRight_eq_div_pow, Nat.mod_eq_of_lt hlt,
    show (0 : BitVec len).toNat = 0 from BitVec.toNat_zero, Nat.div_eq_zero_iff_lt (by positivity), Nat.not_lt]

theorem fctlReserved_iff {w : Word} : fctlReserved w = true ↔ 8 ≤ w.toNat :=
  decide_eq_true_iff.trans (extractLsb'_high_ne_zero_iff w rfl)

theorem idTooWide_iff {ide : Bool} {w : Word} : idTooWide ide w = true ↔ idMax ide < w.toNat :=
  decide_eq_true_iff

/-- A fresh `MOCTRL` holds `ALLOC` and the three bits of a legal filter control word, one place up (R53, R115). -/
theorem moFresh_toNat {ctl : Word} (h : ctl.toNat < 8) :
    (moFresh (fctlDir ctl) (fctlFkind ctl) (fctlFide ctl)).toNat = 1 + 2 * ctl.toNat := by
  have table : ∀ x < 8, (moFresh (fctlDir (.ofNat 32 x)) (fctlFkind (.ofNat 32 x)) (fctlFide (.ofNat 32 x))).toNat =
      1 + 2 * x := by decide
  simpa using table ctl.toNat h

/-- The operands `MBX_ALLOC` faults on: a reserved bit of the filter control word, or a filter word too wide for its tag. -/
def State.BadFilter (s : State) : Prop :=
  8 ≤ s.cur.arg0.toNat ∨ idMax (fctlFide s.cur.arg0) < s.cur.arg1.toNat ∨ idMax (fctlFide s.cur.arg0) < s.cur.arg2.toNat

/-- The state after `MBX_ALLOC` has allocated object `m`. -/
def State.allocated (s : State) (n : NodeId) (m : Nat) : State :=
  ((s.writeObject n m (moFresh (fctlDir s.cur.arg0) (fctlFkind s.cur.arg0) (fctlFide s.cur.arg0)) 0 s.cur.arg1 s.cur.arg2
    0 0).setBitmaps n m true (fctlDir s.cur.arg0) false).setCur { s.cur with res0 := BitVec.ofNat 32 m, code := .ok }

/-- The two operand checks of the command. -/
theorem State.badFilter_iff : s.BadFilter ↔ fctlReserved s.cur.arg0 = true ∨
    (idTooWide (fctlFide s.cur.arg0) s.cur.arg1 || idTooWide (fctlFide s.cur.arg0) s.cur.arg2) = true := by
  rw [Bool.or_eq_true, idTooWide_iff, idTooWide_iff, fctlReserved_iff, State.BadFilter]

theorem exec_mbxAlloc_of_badFilter (h : s.BadFilter) : exec (.mbxAlloc n) s = .next (s.faulted .assertArg) := by
  rw [exec, execMbxAlloc, State.raiseFault_eq]
  by_cases hr : fctlReserved s.cur.arg0 = true
  · rw [if_pos hr]
  · rw [if_neg hr, if_pos ((State.badFilter_iff.mp h).resolve_left hr)]

section
variable (h : ¬s.BadFilter)
include h

theorem exec_mbxAlloc_of_notInit (hst : (s.node n).state ≠ .init) :
    exec (.mbxAlloc n) s = .next (s.coded .cfgNotInInit) := by
  obtain ⟨hr, hi⟩ := not_or.mp (mt State.badFilter_iff.mpr h)
  rw [exec, execMbxAlloc, if_neg hr, if_neg hi, if_pos hst, State.ret_eq_coded]

variable (hst : (s.node n).state = .init)
include hst

theorem exec_mbxAlloc_of_full (hfull : (s.node n).nalloc.toNat = 2 ^ s.params.nMbx - 1) :
    exec (.mbxAlloc n) s = .next (s.coded .poolExhausted) := by
  obtain ⟨hr, hi⟩ := not_or.mp (mt State.badFilter_iff.mpr h)
  have hpool : s.poolFull n = true := decide_eq_true hfull
  rw [exec, execMbxAlloc, if_neg hr, if_neg hi, if_neg (not_not.mpr hst), if_pos hpool, State.ret_eq_coded]

/-- First fit: the object the search finds is the least free one. -/
theorem exec_mbxAlloc_of_first (hfull : (s.node n).nalloc.toNat ≠ 2 ^ s.params.nMbx - 1) {m : Nat}
    (hm : m < s.params.nMbx) (hfree : bitmapGet (s.node n).nalloc m = false)
    (hleast : ∀ k < m, bitmapGet (s.node n).nalloc k = true) : exec (.mbxAlloc n) s = .next (s.allocated n m) := by
  obtain ⟨hr, hi⟩ := not_or.mp (mt State.badFilter_iff.mpr h)
  have hfirst : (leastMbx s.params fun m => !bitmapGet (s.node n).nalloc m) = some m :=
    leastMbx_eq_some.mpr ⟨hm, by simp [hfree], fun k hk => by simp [hleast k hk]⟩
  have hpool : ¬s.poolFull n = true := mt of_decide_eq_true hfull
  rw [exec, execMbxAlloc, if_neg hr, if_neg hi, if_neg (not_not.mpr hst), if_neg hpool, hfirst]
  simp [State.ret_eq_coded, State.allocated, State.writeObject]

/-- An allocation is one of the ways a command succeeds. -/
theorem State.succeeds_allocated {m : Nat} (hm : m < s.params.nMbx) (hfree : bitmapGet (s.node n).nalloc m = false)
    (hleast : ∀ k < m, bitmapGet (s.node n).nalloc k = true) : s.Succeeds (.mbxAlloc n) (s.allocated n m) := by
  obtain ⟨hr, hi⟩ := not_or.mp (mt State.badFilter_iff.mpr h)
  rw [Bool.or_eq_true, not_or, Bool.not_eq_true, Bool.not_eq_true] at hi
  obtain ⟨hfirst, hsecond⟩ := hi
  exact .mbxAlloc n m hst hm hfree (Bool.eq_false_iff.mpr hr) hfirst hsecond hleast

end

@[simp] theorem State.cur_allocated (m : Nat) :
    (s.allocated n m).cur = { s.cur with res0 := BitVec.ofNat 32 m, code := .ok } := State.cur_setCur _ _

/-- An allocation writes the object's bit of each bitmap and no other node register (R191). -/
@[simp] theorem State.node_allocated (m : Nat) : (s.allocated n m).node n = { s.node n with
    nalloc := bitmapSet (s.node n).nalloc m true, ndir := bitmapSet (s.node n).ndir m (fctlDir s.cur.arg0),
    nbusy := bitmapSet (s.node n).nbusy m false } := by
  simp [State.allocated, State.setBitmaps]

/-- The six words of a fresh object (R191). -/
theorem State.mbxRead_allocated (hw : s.mbx.wf) {m w : Nat} (hm : m < 32) (hw6 : w < 6) :
    (s.allocated n m).mbxRead n m w =
      if w = 0 then moFresh (fctlDir s.cur.arg0) (fctlFkind s.cur.arg0) (fctlFide s.cur.arg0)
      else if w = 2 then s.cur.arg1 else if w = 3 then s.cur.arg2 else 0 := by
  rw [State.allocated, State.mbxRead_setCur, State.mbxRead_setBitmaps, State.mbxRead_writeObject hw hm hm hw6,
    if_pos ⟨rfl, rfl⟩]
  interval_cases w <;> rfl

theorem State.sameOutsideObject_allocated (m : Nat) : s.sameOutsideObject (s.allocated n m) n m := by
  intro a ha
  rw [State.allocated, State.setCur_mbx, State.setBitmaps_mbx, State.read_writeObject_other _ _ _ _ _ _ _ _ _ _ ha]

/-- Settles O24: the checks in the order of the rule, then the allocation of the object the search finds. -/
theorem mbxAllocTakesTheFirstFree : Obligations.MbxAllocTakesTheFirstFree := by
  intro n s hw hp ctl idMost r
  by_cases hargs : 8 ≤ ctl.toNat ∨ idMost < s.cur.arg1.toNat ∨ idMost < s.cur.arg2.toNat
  · rw [if_pos hargs]
    exact ⟨_, exec_mbxAlloc_of_badFilter hargs, s.faultEntry_faulted _⟩
  rw [if_neg hargs]
  have hbad : ¬s.BadFilter := hargs
  by_cases hst : r.state ≠ .init
  · rw [if_pos hst]
    exact exec_mbxAlloc_of_notInit hbad hst
  rw [if_neg hst]
  have hinit := not_not.mp hst
  by_cases hfull : r.nalloc.toNat = 2 ^ s.params.nMbx - 1
  · rw [if_pos hfull]
    exact exec_mbxAlloc_of_full hbad hinit hfull
  rw [if_neg hfull]
  intro m hm hfree hleast
  have hm32 : m < 32 := by omega
  have hctl : ctl.toNat < 8 := Nat.lt_of_not_le fun h => hargs (.inl h)
  have h := State.succeeds_allocated hbad hinit hm hfree hleast
  refine ⟨_, exec_mbxAlloc_of_first hbad hinit hfull hm hfree hleast, h.nodeFrame rfl (by simp), State.cur_allocated m,
    by rw [State.node_allocated], fun k _ => ?_, h.mbx_wf hw, State.sameOutsideObject_allocated m, ?_,
    State.mbxRead_allocated hw hm32 (by decide), State.mbxRead_allocated hw hm32 (by decide),
    State.mbxRead_allocated hw hm32 (by decide), State.mbxRead_allocated hw hm32 (by decide),
    State.mbxRead_allocated hw hm32 (by decide)⟩
  · rw [State.node_allocated]
    exact ⟨bitmapGet_bitmapSet _ m k _ hm32, bitmapGet_bitmapSet _ m k _ hm32, bitmapGet_bitmapSet _ m k _ hm32⟩
  · rw [State.mbxRead_allocated hw hm32 (by decide), if_pos rfl, moFresh_toNat hctl]

/-! ### Acceptance (R194) -/

/-- Two words agree under a mask exactly when they agree on each masked bit. -/
theorem and_eq_and_iff (v w mask : Word) :
    v &&& mask = w &&& mask ↔ ∀ i < 32, mask.getLsbD i = true → v.getLsbD i = w.getLsbD i := by
  constructor
  · intro h i _ hmask
    simpa [hmask] using congrArg (·.getLsbD i) h
  · intro h
    apply BitVec.eq_of_getLsbD_eq
    intro i hi
    rw [BitVec.getLsbD_and, BitVec.getLsbD_and]
    cases hmask : mask.getLsbD i with
    | false => simp
    | true => rw [h i hi hmask]

/-- Settles O23: the tag, then the filter by its kind. -/
theorem acceptanceFollowsTheFilter : Obligations.AcceptanceFollowsTheFilter := by
  intro s n m ide id ctl a b
  rw [State.accepts, Bool.and_eq_true, decide_eq_true_iff]
  refine and_congr Iff.rfl ?_
  by_cases hkind : moFkind (s.moctrl n m) = true
  · rw [if_pos hkind, if_pos (show ctl.getLsbD 2 = true from hkind), Bool.and_eq_true, decide_eq_true_iff,
      decide_eq_true_iff, BitVec.le_def, BitVec.le_def]
  · rw [if_neg hkind, if_neg (show ¬ctl.getLsbD 2 = true from hkind), decide_eq_true_iff, and_eq_and_iff]

end Sys2Proof.Machine
end

section
/-! PROOFS. How a pool fills and what empties it (43_mailbox.md R196), over every step and over runs. -/

namespace Sys2Proof.Machine

variable {s t : State} {n : NodeId}

/-! ### What writes `NALLOC` and `NDIR` -/

/-- Node `n` has the same allocated objects, with the same directions. -/
def State.sameAllocation (s t : State) (n : NodeId) : Prop :=
  (t.node n).nalloc = (s.node n).nalloc ∧ (t.node n).ndir = (s.node n).ndir

/-- The three commands that write `NALLOC` and `NDIR` of node `n`. -/
def Instr.writesAllocation (i : Instr) (n : NodeId) : Prop :=
  i = .mbxAlloc n ∨ i = .mbxReleaseAll n ∨ i = .nodeConfigure n

theorem State.Succeeds.sameAllocation {i : Instr} (h : s.Succeeds i t) (n : NodeId) :
    s.sameAllocation t n ∨ ((s.node n).state = .init ∧ t.cur.code = .ok ∧ Instr.writesAllocation i n) := by
  by_cases hk : i.node = some n
  swap
  · exact .inl (by simp [State.sameAllocation, h.node_eq hk])
  cases h with
  | mbxAlloc _ _ hst => cases hk; exact .inr ⟨hst, by simp, .inl rfl⟩
  | mbxReleaseAll _ hst => cases hk; exact .inr ⟨hst, by simp, .inr (.inl rfl)⟩
  | nodeConfigure _ _ hst => cases hk; exact .inr ⟨hst, by simp, .inr (.inr rfl)⟩
  | _ => cases hk <;> exact .inl (by simp [State.sameAllocation, State.node_storeFrame, State.node_setMoBusy])

theorem State.EventTo.sameAllocation {a : Input} (h : s.EventTo a t) (ha : a ≠ .reset) (n : NodeId) :
    s.sameAllocation t n := by
  by_cases hk : s.eventNode a = some n
  swap
  · simp [State.sameAllocation, h.node_eq ha hk]
  cases h with
  | reset => exact absurd rfl ha
  | recovered b _ hkind =>
    simp only [State.eventNode, hkind, if_true, Option.some.injEq] at hk
    subst hk
    rw [State.sameAllocation, State.node_setBank, State.node_idleTransmits, if_pos rfl, State.node_setNode_same]
    exact ⟨rfl, rfl⟩
  | _ => simp_all [State.eventNode, State.sameAllocation]

/-- A step that writes them is reset, or runs one of the three commands in `Init` and ends it with `OK`. -/
theorem State.Effect.sameAllocation (h : s.Effect t) (n : NodeId) :
    s.sameAllocation t n ∨ s.inputIs .reset ∨ ∃ b i, s.nextInstr = some (b, i) ∧ (t.bank b).code = .ok ∧
      (s.node n).state = .init ∧ Instr.writesAllocation i n := by
  cases h with
  | quiet t hs => exact .inl (by simp [State.sameAllocation, State.node_congr n hs.nodes])
  | fault => exact .inl (by rw [State.sameAllocation, State.faulted_node_eq]; simp)
  | success b w rest i hi _ _ t hq =>
    rcases hq.sameAllocation n with hsame | ⟨hst, hok, hw⟩
    · exact .inl (by simpa [State.sameAllocation] using hsame)
    · rw [State.cur, hq.issuer_eq] at hok
      exact .inr (.inr ⟨b, i, hi, hok, by simpa using hst, hw⟩)
  | event a rest ha t he =>
    by_cases hr : a = .reset
    · exact .inr (.inl (hr ▸ ha))
    · exact .inl (by simpa [State.sameAllocation] using he.sameAllocation hr n)

theorem sameAllocation_of_step (ht : step s = .next t) (halloc : ¬s.succeedsNext (.mbxAlloc n))
    (hrel : ¬s.releasesNext n) : s.sameAllocation t n := by
  rcases (step_to ht).effect.sameAllocation n with hsame | hreset | ⟨b, i, hi, hok, -, rfl | rfl | rfl⟩
  · exact hsame
  · exact absurd (.inl hreset) hrel
  · exact absurd ⟨b, t, hi, ht, hok⟩ halloc
  · exact absurd (.inr (.inl ⟨b, t, hi, ht, hok⟩)) hrel
  · exact absurd (.inr (.inr ⟨b, t, hi, ht, hok⟩)) hrel

/-! ### A step that allocates or releases -/

/-- A command that ends with `OK` has neither faulted nor ended with an error. -/
theorem State.succeedsNext.succeeds {i : Instr} (h : s.succeedsNext i) (ht : step s = .next t) :
    ∃ b w rest, (s.issued b w rest).Succeeds i t := by
  obtain ⟨b, u, hi, hu, hok⟩ := h
  obtain rfl : t = u := by rw [ht] at hu; injection hu
  obtain ⟨w, rest, hexec⟩ := (step_to ht).exec_eq hi
  refine ⟨b, w, rest, ?_⟩
  rcases exec_cases hexec with ⟨c, rfl⟩ | ⟨c, hc, rfl⟩ | hq
  · have hcode := ((s.issued b w rest).faulted_cur c).2
    rw [State.cur, State.faulted_issuer, State.takeCommand_issuer, hok] at hcode
    cases hcode
  · rw [State.coded_bank, State.takeCommand_issuer, if_pos rfl] at hok
    cases hok
    cases hc
  · exact hq

/-- A release, a configuration and reset leave the pool empty (R192, R210, R340). -/
theorem State.releasesNext.bitmaps (h : s.releasesNext n) (ht : step s = .next t) :
    (t.node n).nalloc = 0 ∧ (t.node n).ndir = 0 ∧ (t.node n).nbusy = 0 := by
  rcases h with hreset | hrel | hconf
  · obtain ⟨rest, hs⟩ := List.head?_eq_some_iff.mp hreset
    rw [step_cons hs] at ht
    injection ht with ht
    simp [← ht, NodeRegs.reset]
  · obtain ⟨b, w, rest, hq⟩ := hrel.succeeds ht
    cases hq
    simp [State.node_releaseAll]
  · obtain ⟨b, w, rest, hq⟩ := hconf.succeeds ht
    cases hq
    simp [State.node_releaseAll]

/-- First fit extends a pool whose first `k` objects are allocated to the first `k + 1`. -/
theorem State.Succeeds.mbxAlloc_fills (h : s.Succeeds (.mbxAlloc n) t) (hp : s.params.nMbx ≤ 32) {k : Nat}
    (hk : (s.node n).nalloc.toNat = 2 ^ k - 1) :
    k < s.params.nMbx ∧ (t.node n).nalloc.toNat = 2 ^ (k + 1) - 1 := by
  cases h with
  | mbxAlloc _ m _ hm hfree _ _ _ hleast =>
    have hge : ¬m < k := by simpa [bitmapGet_of_toNat hk] using hfree
    have hle : ¬k < m := fun hlt => by simpa [bitmapGet_of_toNat hk] using hleast k hlt
    obtain rfl : k = m := by omega
    refine ⟨hm, ?_⟩
    simpa [State.setBitmaps] using toNat_bitmapSet_first hk (by omega) hfree hleast

/-! ### Runs -/

/-- R196 (a): the run keeps the parameters, and its `k` allocations are of the first `k` objects. -/
theorem State.AllocRun.fills {k : Nat} (h : s.AllocRun n k t) (hp : s.params.nMbx ≤ 32)
    (hempty : (s.node n).nalloc = 0) :
    t.params = s.params ∧ k ≤ s.params.nMbx ∧ (t.node n).nalloc.toNat = 2 ^ k - 1 := by
  induction h with
  | start => exact ⟨rfl, Nat.zero_le _, by simp [hempty]⟩
  | other _ hs ha hr ih =>
    obtain ⟨hparams, hle, hfill⟩ := ih
    obtain ⟨hsame, -⟩ := sameAllocation_of_step hs ha hr
    exact ⟨(step_to hs).params_eq.trans hparams, hle, hsame ▸ hfill⟩
  | @alloc k t u _ hs ha ih =>
    obtain ⟨hparams, -, hfill⟩ := ih
    obtain ⟨b, w, rest, hq⟩ := ha.succeeds hs
    obtain ⟨hlt, hnext⟩ := hq.mbxAlloc_fills (k := k) (by simpa [hparams] using hp) (by simpa using hfill)
    exact ⟨(step_to hs).params_eq.trans hparams, by simpa [hparams] using hlt, hnext⟩

/-- R196 (b): no allocation of a full pool succeeds. -/
theorem not_succeedsNext_mbxAlloc_of_full (hp : s.params.nMbx ≤ 32)
    (hfull : (s.node n).nalloc.toNat = 2 ^ s.params.nMbx - 1) : ¬s.succeedsNext (.mbxAlloc n) := by
  intro h
  have ⟨_, u, _, hu, _⟩ := h
  obtain ⟨b, w, rest, hq⟩ := h.succeeds hu
  exact absurd (hq.mbxAlloc_fills (k := s.params.nMbx) (by simpa using hp) (by simpa using hfull)).1 (by simp)

/-- Settles O52: (a) and (b) by induction over the run, (c) by the effect of the step. -/
theorem poolFillsInOrderAndKeepsDirection : Obligations.PoolFillsInOrderAndKeepsDirection := by
  refine ⟨fun s t n h ht => h.bitmaps ht, fun s t n k hp hempty hrun => ?_, fun s t n ht hne => ?_⟩
  · obtain ⟨hparams, hle, hfill⟩ := hrun.fills hp hempty
    refine ⟨hle, hfill, fun hk => ?_⟩
    rw [hk, ← hparams] at hfill
    refine ⟨not_succeedsNext_mbxAlloc_of_full (hparams ▸ hp) hfill, fun u hu hnode hst harg hid => ?_⟩
    have hlegal : ¬u.BadFilter := by
      rintro (h | h | h)
      · exact absurd harg (Nat.not_lt.mpr h)
      · exact absurd hid.1 (Nat.not_le.mpr h)
      · exact absurd hid.2 (Nat.not_le.mpr h)
    exact exec_mbxAlloc_of_full hlegal hst (by rw [hnode, hu, hfill])
  · rcases (step_to ht).effect.sameAllocation n with ⟨ha, hd⟩ | hreset | ⟨b, i, hi, -, hst, hw⟩
    · exact absurd hne (by simp [ha, hd])
    · exact .inl hreset
    · have hnext := s.runsNext_of_nextInstr hi
      refine .inr ⟨hst, ?_⟩
      rcases hw with rfl | rfl | rfl
      · exact .inl hnext
      · exact .inr (.inl hnext)
      · exact .inr (.inr hnext)

end Sys2Proof.Machine
end

section
/-! PROOFS. The commands of the CAN Node Driver (44_can_node.md R210 to R217), arm by arm, and what an applied timing realises
(R224). -/

namespace Sys2Proof.Machine

variable {s : State} {n : NodeId}

/-! ### The mode commands and the start of a recovery (R211, R215 to R217) -/

/-- Settles O29: each command branches on the conditions of its rule, in their order. -/
theorem nodeModeCommandsMoveTheState : Obligations.NodeModeCommandsMoveTheState := by
  intro n s r
  refine ⟨?_, ?_, ?_⟩
  · have hconf : (!(s.node n).configured || (s.node n).nalloc = 0) = true ↔ r.configured = false ∨ r.nalloc = 0 := by
      simp [r]
    have hcan : (!s.clken.can) = true ↔ s.clken.can = false := by simp
    simp only [exec, execNodeStart, hconf, hcan, State.ret_eq_coded, ← apply_ite Host.Outcome.next]
    rfl
  · simp only [exec, execNodeSleep, State.ret_eq_coded, ← apply_ite Host.Outcome.next]
    rfl
  · simp only [exec, execNodeWake, State.ret_eq_coded, ← apply_ite Host.Outcome.next]
    rfl

/-- Settles O32: outside `BusOff`, or with a recovery in progress, an error return, else the wait. -/
theorem nodeRecoverStartsTheCount : Obligations.NodeRecoverStartsTheCount := by
  intro n s
  simp only [exec, execNodeRecover, State.ret_eq_coded, State.startWait, State.cur_setNode, ← apply_ite Host.Outcome.next]

/-! ### `NODE_CONFIGURE` (R210) -/

/-- The state after `NODE_CONFIGURE` has applied timing `r`. -/
def State.reconfigured (s : State) (n : NodeId) (r : BtResult) : State :=
  (((s.releaseAll n).setProt ⟨false, false, .fg⟩).setNode n { (s.releaseAll n).node n with
    rxLost := false, nbtr := r.btr, nbitrate := BitVec.ofNat 32 r.brReal, nsp := BitVec.ofNat 10 r.spReal,
    configured := true }).setCur { s.cur.setBtResult r with code := .ok }

theorem exec_nodeConfigure_of_badArg (h : btArgBad s.cur.arg0.toNat s.cur.arg1.toNat = true) :
    exec (.nodeConfigure n) s = .next (s.faulted .assertArg) := by
  rw [exec, execNodeConfigure, if_pos h, State.raiseFault_eq]

section
variable (ha : btArgBad s.cur.arg0.toNat s.cur.arg1.toNat = false)
include ha

theorem exec_nodeConfigure_of_notInit (hst : (s.node n).state ≠ .init) :
    exec (.nodeConfigure n) s = .next (s.coded .cfgNotInInit) := by
  rw [exec, execNodeConfigure, if_neg (by simp [ha]), if_pos hst, State.ret_eq_coded]

variable (hst : (s.node n).state = .init)
include hst

theorem exec_nodeConfigure_of_notLocked (hpll : s.pllstat.state ≠ .locked) :
    exec (.nodeConfigure n) s = .next (s.coded .clkNotLocked) := by
  rw [exec, execNodeConfigure, if_neg (by simp [ha]), if_neg (not_not.mpr hst), if_pos hpll, State.ret_eq_coded]

variable (hpll : s.pllstat.state = .locked)
include hpll

theorem exec_nodeConfigure_of_error {c : ResultCode}
    (h : btCompute s.params s.freqCan.toNat s.cur.arg0.toNat s.cur.arg1.toNat s.cur.arg2.toNat = .error c) :
    exec (.nodeConfigure n) s = .next (s.coded c) := by
  rw [exec, execNodeConfigure, if_neg (by simp [ha]), if_neg (not_not.mpr hst), if_neg (not_not.mpr hpll), h]
  exact State.ret_eq_coded s c

variable {r : BtResult}
  (h : btCompute s.params s.freqCan.toNat s.cur.arg0.toNat s.cur.arg1.toNat s.cur.arg2.toNat = .ok r)
include h

theorem exec_nodeConfigure_of_held (hp : s.prot.held = true) :
    exec (.nodeConfigure n) s = .next (s.coded .guardAlreadyHeld) := by
  rw [exec, execNodeConfigure, if_neg (by simp [ha]), if_neg (not_not.mpr hst), if_neg (not_not.mpr hpll), h]
  simp only [hp, if_true, State.ret_eq_coded]

/-- The release, the guarded writes and the report together (R132, R210). -/
theorem exec_nodeConfigure_of_free (hp : s.prot.held = false) :
    exec (.nodeConfigure n) s = .next (s.reconfigured n r) := by
  rw [exec, execNodeConfigure, if_neg (by simp [ha]), if_neg (not_not.mpr hst), if_neg (not_not.mpr hpll), h]
  simp only [hp, Bool.false_eq_true, if_false]
  rw [State.guarded_of_free (by simpa using hp), State.applyTiming_guarded, State.cur_setNode, State.cur_setProt,
    State.cur_releaseAll, State.ret_eq_coded, State.coded_setCur, State.reconfigured]

end

@[simp] theorem State.cur_reconfigured (s : State) (n : NodeId) (r : BtResult) :
    (s.reconfigured n r).cur = { s.cur.setBtResult r with code := .ok } := State.cur_setCur _ _

/-- A configuration empties the node's pool, applies the timing and marks the node configured (R210). -/
@[simp] theorem State.node_reconfigured (s : State) (n : NodeId) (r : BtResult) :
    (s.reconfigured n r).node n = { s.node n with
      nalloc := 0, ndir := 0, nbusy := 0, rxLost := false, nbtr := r.btr, nbitrate := BitVec.ofNat 32 r.brReal,
      nsp := BitVec.ofNat 10 r.spReal, configured := true } := by
  simp [State.reconfigured, State.node_releaseAll]

theorem State.reconfigured_mbx (s : State) (n : NodeId) (r : BtResult) :
    (s.reconfigured n r).mbx = (s.releaseAll n).mbx := by simp [State.reconfigured]

/-- A configuration is one of the ways a command succeeds. -/
theorem State.succeeds_reconfigured {r : BtResult} (ha : btArgBad s.cur.arg0.toNat s.cur.arg1.toNat = false)
    (hst : (s.node n).state = .init) (hpll : s.pllstat.state = .locked)
    (h : btCompute s.params s.freqCan.toNat s.cur.arg0.toNat s.cur.arg1.toNat s.cur.arg2.toNat = .ok r)
    (hp : s.prot.held = false) : s.Succeeds (.nodeConfigure n) (s.reconfigured n r) :=
  .nodeConfigure n r hst hpll h ha hp

/-- A configuration leaves the rest of the block alone, the guard aside. -/
theorem State.Succeeds.nodeFrame_nodeConfigure {t : State} (h : s.Succeeds (.nodeConfigure n) t) :
    s.nodeFrame { t with prot := s.prot } n := by
  refine ⟨?_, h.bank_other (BankId.other_ne _), fun k hk => h.node_eq (by simpa [Instr.node] using Ne.symm hk)⟩
  cases h
  ext <;> simp

/-- Settles O27: the checks in the order of the rule, then the release and the timing. -/
theorem nodeConfigureAppliesTheTiming : Obligations.NodeConfigureAppliesTheTiming := by
  intro n s hw hp br sp
  by_cases hargs : br = 0 ∨ 1000 < sp
  · rw [if_pos hargs]
    exact ⟨_, exec_nodeConfigure_of_badArg (btArgBad_iff.mpr hargs), s.faultEntry_faulted _⟩
  rw [if_neg hargs]
  have ha : btArgBad br sp = false := Bool.eq_false_iff.mpr (mt btArgBad_iff.mp hargs)
  by_cases hst : (s.node n).state ≠ .init
  · rw [if_pos hst]
    exact exec_nodeConfigure_of_notInit ha hst
  rw [if_neg hst]
  have hinit := not_not.mp hst
  by_cases hpll : s.pllstat.state ≠ .locked
  · rw [if_pos hpll]
    exact exec_nodeConfigure_of_notLocked ha hinit hpll
  rw [if_neg hpll]
  have hlocked := not_not.mp hpll
  refine ⟨fun c hc => exec_nodeConfigure_of_error ha hinit hlocked hc, fun r hr => ?_⟩
  by_cases hheld : s.prot.held = true
  · rw [if_pos hheld]
    exact exec_nodeConfigure_of_held ha hinit hlocked hr hheld
  rw [if_neg hheld]
  have hfree : s.prot.held = false := by simpa using hheld
  have h := State.succeeds_reconfigured ha hinit hlocked hr hfree
  have hmbx := s.reconfigured_mbx n r
  refine ⟨_, exec_nodeConfigure_of_free ha hinit hlocked hr hfree, h.nodeFrame_nodeConfigure,
    by simp [State.reconfigured], State.node_reconfigured s n r, ?_, h.mbx_wf hw, fun a ha => ?_, fun m hm w hw6 => ?_⟩
  · rw [State.node_reconfigured, State.cur_reconfigured]
    rfl
  · rw [hmbx, s.read_releaseAll_other n a ha]
  · rw [State.mbxRead_congr n hmbx, s.mbxRead_releaseAll n n m w hw hp (by omega) (by omega), if_pos ⟨rfl, hm, hw6⟩]

/-! ### The applied timing (R224) -/

/-- A timing within the bounds of R173 keeps its numbers in the register's fields (R9, R45). -/
theorem BtResult.btr_fields {pr : Params} {r : BtResult} (hw : pr.wf) (h : timingOk pr r.brp r.tseg1 r.tseg2 r.sjw) :
    r.btr.brp.toNat = r.brp ∧ r.btr.tseg1.toNat = r.tseg1 ∧ r.btr.tseg2.toNat = r.tseg2 := by
  obtain ⟨-, -, -, -, hT1, hT2, -, hB, -⟩ := hw
  obtain ⟨-, ⟨-, h1⟩, ⟨-, h2⟩, -, -, hb⟩ := h
  exact ⟨toNat_ofNat_of_lt (by omega), toNat_ofNat_of_lt (by omega), toNat_ofNat_of_lt (by omega)⟩

/-- The reported sample point is the one the kept candidate realises (R178). -/
theorem btCompute_spReal {pr : Params} {clk br sp tol : Nat} {r : BtResult} (h : btCompute pr clk br sp tol = .ok r) :
    r.spReal = 1000 * (1 + r.tseg1) / r.nq := by
  rcases btCompute_cases pr clk br sp tol with ⟨e, herr, -⟩ | ⟨c, -, -, hok⟩
  · simp [herr] at h
  · rw [← Except.ok.inj (hok.symm.trans h)]
    rfl

/-- A configuration that ends with `OK` has passed the checks and applied the timing of `bt_compute`. -/
theorem reconfigured_of_exec_nodeConfigure {t : State} (ht : exec (.nodeConfigure n) s = .next t)
    (hcode : t.cur.code = .ok) : ∃ r, btArgBad s.cur.arg0.toNat s.cur.arg1.toNat = false ∧
      btCompute s.params s.freqCan.toNat s.cur.arg0.toNat s.cur.arg1.toNat s.cur.arg2.toNat = .ok r ∧
      t = s.reconfigured n r := by
  rcases exec_cases ht with ⟨c, rfl⟩ | ⟨c, hc, rfl⟩ | hs
  · cases (s.faulted_cur c).2.symm.trans hcode
  · rw [State.coded_cur] at hcode
    cases hcode
    cases hc
  · cases hs with
    | nodeConfigure _ r _ _ hbt hargs => exact ⟨r, hargs, hbt, rfl⟩

/-- Settles O28: what `bt_compute` returns is sound (O21), and the registers hold its numbers. -/
theorem nodeConfigureRoundTrips : Obligations.NodeConfigureRoundTrips := by
  intro n s t hpar _ ht hcode r nq
  obtain ⟨q, hargs, hbt, rfl⟩ := reconfigured_of_exec_nodeConfigure ht hcode
  have hbr : ¬(s.cur.arg0.toNat = 0 ∨ 1000 < s.cur.arg1.toNat) := mt btArgBad_iff.mpr (by simp [hargs])
  obtain ⟨htol, hexact, hrate, hnq, htiming, hvalid, -⟩ :=
    (bitTimingResultsAreSound s.params _ _ _ _).1 q hpar (by omega) hbt
  obtain ⟨hbrp, htseg1, htseg2⟩ := BtResult.btr_fields hpar htiming
  have hsp := btCompute_spReal hbt
  have hnode := State.node_reconfigured s n q
  have hbtr : r.nbtr = q.btr := congrArg NodeRegs.nbtr hnode
  have hquanta : nq = q.nq := by rw [hnq, ← htseg1, ← htseg2, ← hbtr]
  have hsp1000 : q.spReal ≤ 1000 := hsp ▸ Nat.div_le_of_le_mul (by omega)
  rw [hquanta, hbtr, hbrp, htseg1]
  refine ⟨congrArg NodeRegs.configured hnode, (congrArg NodeRegs.nbitrate hnode).trans ?_, ?_, htol, ?_, ?_⟩
  · rw [hrate, BitVec.ofNat_toNat, BitVec.setWidth_eq]
  · rw [hexact]
    simp [State.reconfigured]
  · rw [← hsp, ← toNat_ofNat_of_lt (n := 10) (x := q.spReal) (by omega)]
    exact congrArg (fun r : NodeRegs => r.nsp.toNat) hnode
  · simpa [State.reconfigured] using hvalid

end Sys2Proof.Machine
end

section
/-! PROOFS. The frames of a CAN node: `NODE_TRANSMIT` claims an idle Transmit object (44_can_node.md R212), `NODE_TRY_RECEIVE`
drains a pending Receive object (R213). -/

namespace Sys2Proof.Machine

variable {s : State} {n : NodeId}

/-! ### The frame header and `MOCTRL` (R53, R112) -/

theorem hdrReserved_iff {w : Word} : hdrReserved w = true ↔ 2 ^ 6 ≤ w.toNat :=
  decide_eq_true_iff.trans (extractLsb'_high_ne_zero_iff w rfl)

theorem hdrDlc_toNat (w : Word) : (hdrDlc w).toNat = w.toNat % 16 := by
  simp [hdrDlc]

theorem hdrDlc_eq (w : Word) : hdrDlc w = BitVec.ofNat 4 (w.toNat % 16) := by
  rw [← hdrDlc_toNat, BitVec.ofNat_toNat, BitVec.setWidth_eq]

theorem hdrDlc_getLsbD (w : Word) {k : Nat} (hk : k < 4) : (hdrDlc w).getLsbD k = w.getLsbD k := by
  simp [hdrDlc, hk]

/-- Storing a frame writes `DLC`, `RTR`, `IDE` and `BUSY` at their bits and keeps every other bit of `MOCTRL` (R212). -/
theorem getLsbD_moSetFrame (w : Word) (dlc : BitVec 4) (rtr ide : Bool) {i : Nat} (hi : i < 32) :
    (moSetFrame w dlc rtr ide).getLsbD i =
      if i = 4 then true
      else if 8 ≤ i ∧ i < 12 then dlc.getLsbD (i - 8)
      else if i = 12 then rtr
      else if i = 13 then ide
      else w.getLsbD i := by
  have hbit : ∀ b : Bool, ∀ k, (bitW b).getLsbD k = (b && decide (k = 0)) := by
    intro b k
    cases b <;> simp [bitW, BitVec.getLsbD_one]
  simp only [moSetFrame, BitVec.getLsbD_or, BitVec.getLsbD_and, BitVec.getLsbD_shiftLeft, hbit, fieldW]
  interval_cases i <;> simp

/-- The fields of `MOCTRL` a drained object answers, `DLC`, `RTR` and `IDE`, are its bits 8 to 13 (R53). -/
theorem moHeader_toNat (ctl : Word) :
    (moDlc ctl).toNat + 2 ^ 4 * (moRtr ctl).toNat + 2 ^ 5 * (moIde ctl).toNat = ctl.toNat / 2 ^ 8 % 2 ^ 6 := by
  have hdlc : (moDlc ctl).toNat = ctl.toNat / 2 ^ 8 % 2 ^ 4 := by
    rw [moDlc, BitVec.extractLsb'_toNat, Nat.shiftRight_eq_div_pow]
  have hbit : ∀ k, (ctl.getLsbD k).toNat = ctl.toNat / 2 ^ k % 2 := fun k => Nat.toNat_testBit ctl.toNat k
  rw [hdlc, moRtr, moIde, hbit, hbit]
  omega

/-- The header a drained object answers, with its index and the valid bit (R112, R213). -/
theorem hdrResult_eq (ctl : Word) {m : Nat} (hm : m < 32) :
    hdrResult ctl m = BitVec.ofNat 32 (ctl.toNat / 2 ^ 8 % 2 ^ 6 + 2 ^ 8 * m + 2 ^ 31) := by
  have hd := (moDlc ctl).isLt
  have hr := (moRtr ctl).toNat_lt
  have hi := (moIde ctl).toNat_lt
  have hfields : (hdrResult ctl m).toNat =
      (moDlc ctl).toNat + 2 ^ 4 * (moRtr ctl).toNat + 2 ^ 5 * (moIde ctl).toNat + 2 ^ 8 * m + 2 ^ 31 * 1 :=
    toNat_or_shiftLeft
      (toNat_or_shiftLeft
        (toNat_or_shiftLeft
          (toNat_or_shiftLeft (fieldW_toNat _ (by omega)) (bitW_toNat _) hd (by omega))
          (bitW_toNat _) (by omega) (by omega))
        (toNat_ofNat_of_lt (by omega)) (by omega) (by omega))
      rfl (by omega) (by omega)
  apply BitVec.eq_of_toNat_eq
  rw [hfields, moHeader_toNat, toNat_ofNat_of_lt (by omega), Nat.mul_one]

/-! ### The searches (R195) -/

section
variable {p : Params} {c : Nat → Bool} {P : Nat → Prop} (hc : ∀ k, c k = true ↔ P k)
include hc

theorem leastMbx_of_least {m : Nat} (hm : m < p.nMbx) (h : P m) (hleast : ∀ k < m, ¬P k) : leastMbx p c = some m :=
  leastMbx_eq_some.mpr ⟨hm, (hc m).mpr h, fun k hk => Bool.eq_false_iff.mpr (mt (hc k).mp (hleast k hk))⟩

theorem leastMbx_of_empty (h : ∀ m < p.nMbx, ¬P m) : leastMbx p c = none :=
  leastMbx_eq_none.mpr fun m hm => Bool.eq_false_iff.mpr (mt (hc m).mp (h m hm))

end

/-- Object `m` is an idle Transmit object. -/
abbrev NodeRegs.IdleTx (r : NodeRegs) (m : Nat) : Prop :=
  r.nalloc.getLsbD m = true ∧ r.ndir.getLsbD m = true ∧ r.nbusy.getLsbD m = false

/-- Object `m` is a pending Receive object. -/
abbrev NodeRegs.PendingRx (r : NodeRegs) (m : Nat) : Prop :=
  r.nalloc.getLsbD m = true ∧ r.ndir.getLsbD m = false ∧ r.nbusy.getLsbD m = true

theorem NodeRegs.idleTx_iff (r : NodeRegs) (m : Nat) :
    (bitmapGet r.nalloc m && bitmapGet r.ndir m && !bitmapGet r.nbusy m) = true ↔ r.IdleTx m := by
  simp only [bitmapGet, Bool.and_eq_true, Bool.not_eq_true', and_assoc]

theorem NodeRegs.pendingRx_iff (r : NodeRegs) (m : Nat) :
    (bitmapGet r.nalloc m && !bitmapGet r.ndir m && bitmapGet r.nbusy m) = true ↔ r.PendingRx m := by
  simp only [bitmapGet, Bool.and_eq_true, Bool.not_eq_true', and_assoc]

/-! ### `NODE_TRANSMIT` (R212) -/

/-- The operands pass the checks of `NODE_TRANSMIT`: no reserved bit, a legal length, an identifier within its tag. -/
structure State.LegalFrame (s : State) : Prop where
  reserved : ¬2 ^ 6 ≤ s.cur.arg0.toNat
  length : ¬s.params.dlcMax < s.cur.arg0.toNat % 16
  ident : ¬idMax (hdrIde s.cur.arg0) < s.cur.arg1.toNat

/-- The state after `NODE_TRANSMIT` has claimed object `m`. -/
def State.transmitted (s : State) (n : NodeId) (m : Nat) : State :=
  let d := maskData (hdrDlc s.cur.arg0) (hdrRtr s.cur.arg0) s.cur.arg2 s.cur.arg3
  (s.storeFrame n m (hdrDlc s.cur.arg0) (hdrRtr s.cur.arg0) (hdrIde s.cur.arg0) s.cur.arg1 d.1 d.2).setCur
    { s.cur with res0 := BitVec.ofNat 32 m, code := .ok }

theorem exec_nodeTransmit_of_reserved (h : 2 ^ 6 ≤ s.cur.arg0.toNat) :
    exec (.nodeTransmit n) s = .next (s.faulted .assertArg) := by
  rw [exec, execNodeTransmit, if_pos (hdrReserved_iff.mpr h), State.raiseFault_eq]

theorem exec_nodeTransmit_of_tooLong (hres : ¬2 ^ 6 ≤ s.cur.arg0.toNat)
    (h : s.params.dlcMax < s.cur.arg0.toNat % 16) : exec (.nodeTransmit n) s = .next (s.faulted .assertPayload) := by
  rw [← hdrDlc_toNat] at h
  rw [exec, execNodeTransmit, if_neg (mt hdrReserved_iff.mp hres), if_pos h, State.raiseFault_eq]

theorem exec_nodeTransmit_of_tooWide (hres : ¬2 ^ 6 ≤ s.cur.arg0.toNat)
    (hlen : ¬s.params.dlcMax < s.cur.arg0.toNat % 16) (h : idMax (hdrIde s.cur.arg0) < s.cur.arg1.toNat) :
    exec (.nodeTransmit n) s = .next (s.faulted .assertArg) := by
  rw [← hdrDlc_toNat] at hlen
  rw [exec, execNodeTransmit, if_neg (mt hdrReserved_iff.mp hres), if_neg hlen, if_pos (idTooWide_iff.mpr h),
    State.raiseFault_eq]

/-- Operands that fail a check fault, whatever the node's state (R303). -/
theorem exec_nodeTransmit_of_illegal (h : ¬s.LegalFrame) : ∃ c, exec (.nodeTransmit n) s = .next (s.faulted c) := by
  by_cases hres : 2 ^ 6 ≤ s.cur.arg0.toNat
  · exact ⟨_, exec_nodeTransmit_of_reserved hres⟩
  by_cases hlen : s.params.dlcMax < s.cur.arg0.toNat % 16
  · exact ⟨_, exec_nodeTransmit_of_tooLong hres hlen⟩
  by_cases hid : idMax (hdrIde s.cur.arg0) < s.cur.arg1.toNat
  · exact ⟨_, exec_nodeTransmit_of_tooWide hres hlen hid⟩
  · exact absurd ⟨hres, hlen, hid⟩ h

section
variable (h : s.LegalFrame)
include h

/-- Past the operand checks the node's state decides, then the search. -/
theorem exec_nodeTransmit_of_legal : exec (.nodeTransmit n) s =
    if (s.node n).state ≠ .normal then .next (s.coded .txNotNormal)
    else (s.txFree n).elim (.next (s.coded .txNoFreeMailbox)) fun m => .next (s.transmitted n m) := by
  obtain ⟨hres, hlen, hid⟩ := h
  rw [← hdrDlc_toNat] at hlen
  rw [exec, execNodeTransmit, if_neg (mt hdrReserved_iff.mp hres), if_neg hlen, if_neg (mt idTooWide_iff.mp hid)]
  cases s.txFree n with
  | none => simp only [Option.elim_none, State.ret_eq_coded]
  | some m =>
    simp only [Option.elim_some, State.ret_eq_coded, State.coded_setCur, State.cur_storeFrame, State.transmitted]

theorem exec_nodeTransmit_of_notNormal (hst : (s.node n).state ≠ .normal) :
    exec (.nodeTransmit n) s = .next (s.coded .txNotNormal) := by
  rw [exec_nodeTransmit_of_legal h, if_pos hst]

variable (hst : (s.node n).state = .normal)
include hst

theorem exec_nodeTransmit_of_busy (hnone : ∀ m < s.params.nMbx, ¬(s.node n).IdleTx m) :
    exec (.nodeTransmit n) s = .next (s.coded .txNoFreeMailbox) := by
  have hfree : s.txFree n = none := leastMbx_of_empty (s.node n).idleTx_iff hnone
  rw [exec_nodeTransmit_of_legal h, if_neg (not_not.mpr hst), hfree, Option.elim_none]

variable {m : Nat} (hm : m < s.params.nMbx) (hidle : (s.node n).IdleTx m)
include hm hidle

/-- The object the search finds is the least idle one. -/
theorem exec_nodeTransmit_of_least (hleast : ∀ k < m, ¬(s.node n).IdleTx k) :
    exec (.nodeTransmit n) s = .next (s.transmitted n m) := by
  have hfree : s.txFree n = some m := leastMbx_of_least (s.node n).idleTx_iff hm hidle hleast
  rw [exec_nodeTransmit_of_legal h, if_neg (not_not.mpr hst), hfree, Option.elim_some]

/-- A transmission is one of the ways a command succeeds. -/
theorem State.succeeds_transmitted : s.Succeeds (.nodeTransmit n) (s.transmitted n m) := by
  obtain ⟨hres, hlen, hid⟩ := h
  rw [← hdrDlc_toNat] at hlen
  obtain ⟨halloc, hdir, hbusy⟩ := hidle
  exact .nodeTransmit n m hst hm halloc hdir hbusy (Nat.le_of_not_lt hlen)
    (Bool.eq_false_iff.mpr (mt idTooWide_iff.mp hid)) _ _

end

@[simp] theorem State.cur_transmitted (m : Nat) :
    (s.transmitted n m).cur = { s.cur with res0 := BitVec.ofNat 32 m, code := .ok } := State.cur_setCur _ _

/-- A transmission sets the object's busy bit and writes no other node register (R212). -/
@[simp] theorem State.node_transmitted (m : Nat) :
    (s.transmitted n m).node n = { s.node n with nbusy := bitmapSet (s.node n).nbusy m true } := by
  simp [State.transmitted, State.node_storeFrame]

/-- The six words of the object that takes the frame; the filter words stay (R212). -/
theorem State.mbxRead_transmitted (hw : s.mbx.wf) {m w : Nat} (hm : m < 32) (hw6 : w < 6) :
    (s.transmitted n m).mbxRead n m w =
      let d := maskData (hdrDlc s.cur.arg0) (hdrRtr s.cur.arg0) s.cur.arg2 s.cur.arg3
      if w = 0 then moSetFrame (s.moctrl n m) (hdrDlc s.cur.arg0) (hdrRtr s.cur.arg0) (hdrIde s.cur.arg0)
      else if w = 1 then s.cur.arg1 else if w = 4 then d.1 else if w = 5 then d.2 else s.mbxRead n m w := by
  rw [State.transmitted, State.mbxRead_setCur,
    State.mbxRead_storeFrame s n n m m w _ _ _ _ _ _ hw hm hm (by omega), if_pos ⟨rfl, rfl⟩]

theorem State.sameOutsideObject_transmitted (m : Nat) : s.sameOutsideObject (s.transmitted n m) n m := by
  intro a ha
  rw [State.transmitted, State.setCur_mbx, State.read_storeFrame_other _ _ _ _ _ _ _ _ _ _ ha]

/-- Settles O30: the checks in the order of the rule, then the object the search finds takes the frame. -/
theorem nodeTransmitClaimsTheLowestIdle : Obligations.NodeTransmitClaimsTheLowestIdle := by
  intro n s hw hp hdr dlc r idle
  by_cases hres : 2 ^ 6 ≤ hdr.toNat
  · rw [if_pos hres]
    exact ⟨_, exec_nodeTransmit_of_reserved hres, s.faultEntry_faulted _⟩
  rw [if_neg hres]
  by_cases hlen : s.params.dlcMax < dlc
  · rw [if_pos hlen]
    exact ⟨_, exec_nodeTransmit_of_tooLong hres hlen, s.faultEntry_faulted _⟩
  rw [if_neg hlen]
  by_cases hid : (if hdr.getLsbD 5 = true then 2 ^ 29 - 1 else 2 ^ 11 - 1) < s.cur.arg1.toNat
  · rw [if_pos hid]
    exact ⟨_, exec_nodeTransmit_of_tooWide hres hlen hid, s.faultEntry_faulted _⟩
  rw [if_neg hid]
  have hlegal : s.LegalFrame := ⟨hres, hlen, hid⟩
  by_cases hst : r.state ≠ .normal
  · rw [if_pos hst]
    exact exec_nodeTransmit_of_notNormal hlegal hst
  rw [if_neg hst]
  have hnormal := not_not.mp hst
  refine ⟨exec_nodeTransmit_of_busy hlegal hnormal, fun m hm hidle hleast => ?_⟩
  have hm32 : m < 32 := by omega
  have h := State.succeeds_transmitted hlegal hnormal hm hidle
  refine ⟨_, exec_nodeTransmit_of_least hlegal hnormal hm hidle hleast, h.nodeFrame rfl (by simp),
    State.cur_transmitted m, by rw [State.node_transmitted], fun k _ => ?_, h.mbx_wf hw,
    State.sameOutsideObject_transmitted m, fun i hi => ?_,
    State.mbxRead_transmitted hw hm32 (by decide), State.mbxRead_transmitted hw hm32 (by decide),
    State.mbxRead_transmitted hw hm32 (by decide), ?_, ?_⟩
  · rw [State.node_transmitted]
    exact bitmapGet_bitmapSet _ m k _ hm32
  · rw [State.mbxRead_transmitted hw hm32 (by decide)]
    refine (getLsbD_moSetFrame _ _ _ _ hi).trans ?_
    split_ifs with h4 h8
    · rfl
    · exact hdrDlc_getLsbD _ (by omega)
    · rfl
    · rfl
    · rfl
  · rw [← hdrDlc_eq]
    exact State.mbxRead_transmitted hw hm32 (by decide)
  · rw [← hdrDlc_eq]
    exact State.mbxRead_transmitted hw hm32 (by decide)

/-! ### `NODE_TRY_RECEIVE` (R213) -/

/-- The state after `NODE_TRY_RECEIVE` has drained object `m`. -/
def State.drained (s : State) (n : NodeId) (m : Nat) : State :=
  (s.setMoBusy n m false).setCur { s.cur with
    res0 := hdrResult (s.moctrl n m) m, res1 := s.mbxRead n m 1, res2 := s.mbxRead n m 4, res3 := s.mbxRead n m 5,
    code := .ok }

theorem exec_nodeTryReceive_of_empty (h : ∀ m < s.params.nMbx, ¬(s.node n).PendingRx m) :
    exec (.nodeTryReceive n) s = .next (s.coded .empty) := by
  have hpending : s.rxPending n = none := leastMbx_of_empty (s.node n).pendingRx_iff h
  rw [exec, execNodeTryReceive, hpending]
  exact State.ret_eq_coded s _

section
variable {m : Nat} (hm : m < s.params.nMbx) (h : (s.node n).PendingRx m)
include hm h

/-- The object the search finds is the least pending one. -/
theorem exec_nodeTryReceive_of_least (hleast : ∀ k < m, ¬(s.node n).PendingRx k) :
    exec (.nodeTryReceive n) s = .next (s.drained n m) := by
  have hpending : s.rxPending n = some m := leastMbx_of_least (s.node n).pendingRx_iff hm h hleast
  rw [exec, execNodeTryReceive, hpending]
  simp only [State.setMoBusy_setCur, State.ret_eq_coded, State.coded_setCur, State.drained]

/-- A reception is one of the ways a command succeeds. -/
theorem State.succeeds_drained : s.Succeeds (.nodeTryReceive n) (s.drained n m) := by
  obtain ⟨halloc, hdir, hbusy⟩ := h
  exact .nodeTryReceive n m hm halloc hdir hbusy

end

/-- A reception clears the object's busy bit and writes no other node register (R213). -/
@[simp] theorem State.node_drained (m : Nat) :
    (s.drained n m).node n = { s.node n with nbusy := bitmapSet (s.node n).nbusy m false } := by
  simp [State.drained, State.node_setMoBusy]

/-- A drained object keeps its words but for `MOCTRL.BUSY` (R213). -/
theorem State.mbxRead_drained (hw : s.mbx.wf) {m w : Nat} (hm : m < 32) (hw6 : w < 6) :
    (s.drained n m).mbxRead n m w = if w = 0 then moSetBusy (s.moctrl n m) false else s.mbxRead n m w := by
  rw [State.drained, State.mbxRead_setCur, State.mbxRead_setMoBusy s n n m m w false hw hm hm (by omega)]
  simp only [true_and]

theorem State.sameOutsideObject_drained (m : Nat) : s.sameOutsideObject (s.drained n m) n m := by
  intro a ha
  rw [State.drained, State.setCur_mbx, State.read_setMoBusy_other _ _ _ _ _ (ha 0 (by decide))]

/-- Settles O31: nothing pending, or the object the search finds is drained. -/
theorem nodeTryReceiveDrainsTheLowestPending : Obligations.NodeTryReceiveDrainsTheLowestPending := by
  intro n s hw hp r pending
  refine ⟨exec_nodeTryReceive_of_empty, fun m hm hpend hleast => ?_⟩
  intro ctl
  have hm32 : m < 32 := by omega
  have h := State.succeeds_drained hm hpend
  refine ⟨_, exec_nodeTryReceive_of_least hm hpend hleast, h.nodeFrame rfl (by simp), ?_,
    by rw [State.node_drained], fun k _ => ?_, h.mbx_wf hw, State.sameOutsideObject_drained m, fun i _ => ?_,
    fun w hw6 hne => ?_⟩
  · rw [State.drained, State.cur_setCur, hdrResult_eq _ hm32]
    rfl
  · rw [State.node_drained]
    exact bitmapGet_bitmapSet _ m k _ hm32
  · rw [State.mbxRead_drained hw hm32 (by decide), if_pos rfl]
    exact bitmapGet_bitmapSet _ 4 i _ (by decide)
  · rw [State.mbxRead_drained hw hm32 hw6, if_neg hne]

end Sys2Proof.Machine
end

section
/-! PROOFS. The poll step of a recovery (44_can_node.md R218), the table of `NSTATE` (R219), and that a node in `BusOff` sends
nothing before it has recovered and been started again (R223). -/

namespace Sys2Proof.Machine

variable {s t : State}

/-! ### The poll step (R218) -/

/-- The state a completed recovery of node `n` leaves, the end of the wait aside (R218). -/
def State.recoveredNode (s : State) (n : NodeId) : State := (s.setNode n (s.node n).recovered).idleTransmits n

section
variable {b : BankId} {rest : List Input} (h : s.schedule = .waitStep b :: rest) (hb : (s.bank b).busy = true)
  (hk : (s.bank b).waitKind = .recov)
include h hb hk

/-- A poll of a bank that waits for a recovery. -/
theorem step_pollRecov : step s = (s.moved rest).pollRecov b := by
  rw [step_cons h, State.perform, State.eventWaitStep, State.bank_moved, if_pos hb, hk]

theorem step_pollRecov_of_left (hst : (s.node (s.bank b).waitNode).state ≠ .busOff) :
    step s = .next (((s.moved rest).setNode (s.bank b).waitNode
      { s.node (s.bank b).waitNode with recovering := false }).setBank b ((s.bank b).ended .nodeBadState)) := by
  rw [step_pollRecov h hb hk, State.pollRecov, State.bank_moved, State.node_moved, if_pos hst, State.finish,
    State.setRecovering, State.bank_setNode, State.bank_moved, State.node_moved]

variable (hst : (s.node (s.bank b).waitNode).state = .busOff)
include hst

theorem step_pollRecov_of_recovered (hc : s.params.recovSeq ≤ (s.node (s.bank b).waitNode).recCnt.toNat) :
    step s = .next (((s.moved rest).recoveredNode (s.bank b).waitNode).setBank b ((s.bank b).ended .ok)) := by
  rw [step_pollRecov h hb hk, State.pollRecov, State.bank_moved, State.node_moved, State.moved_params,
    if_neg (not_not.mpr hst), if_pos hc, State.finish, State.bank_idleTransmits, State.bank_setNode, State.bank_moved,
    State.recoveredNode, State.node_moved]

variable (hc : ¬s.params.recovSeq ≤ (s.node (s.bank b).waitNode).recCnt.toNat)
include hc

theorem step_pollRecov_of_bound (hl : (s.bank b).waitCnt = (s.bank b).waitLim) :
    step s = .next (((s.moved rest).setNode (s.bank b).waitNode
      { s.node (s.bank b).waitNode with recovering := false }).setBank b ((s.bank b).ended .recoverTimeout)) := by
  rw [step_pollRecov h hb hk, State.pollRecov, State.bank_moved, State.node_moved, State.moved_params,
    if_neg (not_not.mpr hst), if_neg hc, if_pos hl, State.finish, State.setRecovering, State.bank_setNode,
    State.bank_moved, State.node_moved]

theorem step_pollRecov_of_below (hl : (s.bank b).waitCnt ≠ (s.bank b).waitLim) :
    step s = .next ((s.moved rest).setBank b { s.bank b with waitCnt := (s.bank b).waitCnt + 1 }) := by
  rw [step_pollRecov h hb hk, State.pollRecov, State.bank_moved, State.node_moved, State.moved_params,
    if_neg (not_not.mpr hst), if_neg hc, if_neg hl, State.countPoll, State.bank_moved]

end

section
variable {n : NodeId}

/-- A completed recovery returns the node to `Init`, clears its error counter, and of the bitmaps writes `NBUSY` only. -/
theorem State.node_recoveredNode (s : State) (n k : NodeId) : (s.recoveredNode n).node k =
    if k = n then { (s.node n).recovered with nbusy := ((s.recoveredNode n).node n).nbusy } else s.node k := by
  rw [State.recoveredNode, State.node_idleTransmits]
  by_cases hk : k = n
  · simp [hk]
  · simp [hk, State.node_setNode]

theorem State.sameOutsidePool_recoveredNode (s : State) (n : NodeId) : s.sameOutsidePool (s.recoveredNode n) n := by
  intro a ha
  rw [State.recoveredNode, State.read_idleTransmits_other _ n a fun m hm => ha m (by simpa using hm) 0 (by decide),
    State.setNode_mbx]

variable (hw : s.mbx.wf)
include hw

theorem State.recoveredNode_wf (n : NodeId) : (s.recoveredNode n).mbx.wf :=
  State.idleTransmits_wf _ n (State.mbx_wf_of_eq (by simp) hw)

variable (hp : s.params.nMbx ≤ 32)
include hp

/-- It clears the busy bits of the node's Transmit objects. -/
theorem State.nbusy_recoveredNode {m : Nat} (hm : m < 32) : ((s.recoveredNode n).node n).nbusy.getLsbD m =
    if m < s.params.nMbx ∧ (s.node n).ndir.getLsbD m = true then false else (s.node n).nbusy.getLsbD m := by
  have h := State.bitmapGet_idleTransmits (s := s.setNode n (s.node n).recovered) (State.mbx_wf_of_eq (by simp) hw)
    (by simpa using hp) n hm
  simpa [State.recoveredNode, bitmapGet] using h

/-- It clears their `MOCTRL.BUSY` and writes no other word. -/
theorem State.mbxRead_recoveredNode {m w : Nat} (hm : m < s.params.nMbx) (hw6 : w < 6) :
    (s.recoveredNode n).mbxRead n m w =
      if w = 0 ∧ (s.node n).ndir.getLsbD m = true then moSetBusy (s.moctrl n m) false else s.mbxRead n m w := by
  have h := State.mbxRead_idleTransmits (s := s.setNode n (s.node n).recovered) (State.mbx_wf_of_eq (by simp) hw)
    (by simpa using hp) n n (by omega : m < 32) (by omega : w < 8)
  simpa [State.recoveredNode, State.moctrl, bitmapGet, hm] using h

/-- The bits of `MOCTRL`: of a Transmit object `BUSY` is cleared, every other bit stays. -/
theorem State.moctrl_recoveredNode {m : Nat} (hm : m < s.params.nMbx) (i : Nat) :
    ((s.recoveredNode n).mbxRead n m 0).getLsbD i =
      if (s.node n).ndir.getLsbD m = true ∧ i = 4 then false else (s.mbxRead n m 0).getLsbD i := by
  rw [State.mbxRead_recoveredNode hw hp hm (by decide)]
  by_cases hd : (s.node n).ndir.getLsbD m = true
  · simp only [hd, and_self, true_and, if_true]
    exact bitmapGet_bitmapSet _ 4 i false (by decide)
  · simp only [hd, and_false, false_and, if_false, Bool.false_eq_true]

end

/-- Settles O36: one lemma per outcome of the poll, the count tested before the bound. -/
theorem recoveryPollDecidesInOrder : Obligations.RecoveryPollDecidesInOrder := by
  intro s b rest h hb hk hw hp bk n r s0 done
  by_cases hst : r.state ≠ .busOff
  · rw [if_pos hst]
    exact step_pollRecov_of_left h hb hk hst
  rw [if_neg hst]
  have hoff := not_not.mp hst
  by_cases hc : s.params.recovSeq ≤ r.recCnt.toNat
  · rw [if_pos hc]
    refine ⟨_, step_pollRecov_of_recovered h hb hk hoff hc, ?_, State.bank_setBank_same _ _ _, ?_, fun k hne => ?_, ?_,
      fun m hm => ?_, ?_, fun a ha => ?_, fun m hm i hi => ?_, fun m hm w hw6 hne => ?_⟩
    · ext <;> simp [State.recoveredNode, s0]
    · rw [State.bank_setBank_other _ _ _ _ (BankId.other_ne b)]
      simp [State.recoveredNode]
    · rw [State.node_setBank, State.node_recoveredNode, if_neg hne]
      exact State.node_moved _ _ _
    · rw [State.node_setBank, State.node_recoveredNode, if_pos rfl]
      rfl
    · rw [State.node_setBank]
      exact State.nbusy_recoveredNode (s := s0) hw hp hm
    · rw [State.setBank_mbx]
      exact State.recoveredNode_wf (s := s0) hw n
    · rw [State.setBank_mbx]
      exact s0.sameOutsidePool_recoveredNode n a ha
    · rw [State.mbxRead_setBank]
      exact State.moctrl_recoveredNode (s := s0) hw hp hm i
    · rw [State.mbxRead_setBank, State.mbxRead_recoveredNode (s := s0) hw hp hm hw6, if_neg fun h => hne h.1]
      exact State.mbxRead_moved _ _ _ _ _
  rw [if_neg hc]
  by_cases hl : bk.waitCnt = bk.waitLim
  · rw [if_pos hl]
    exact step_pollRecov_of_bound h hb hk hoff hc hl
  · rw [if_neg hl]
    exact step_pollRecov_of_below h hb hk hoff hc hl

/-! ### The table of `NSTATE` (R219) -/

/-- The commands that move a node's state. -/
theorem State.Succeeds.nodeState_moves {i : Instr} (h : s.Succeeds i t) {n : NodeId}
    (hne : (t.node n).state ≠ (s.node n).state) :
    (i = .nodeStart n ∧ (s.node n).state = .init ∧ (t.node n).state = .normal) ∨
    (i = .nodeSleep n ∧ (s.node n).state = .normal ∧ (t.node n).state = .sleep) ∨
    (i = .nodeWake n ∧ (s.node n).state = .sleep ∧ (t.node n).state = .normal) := by
  by_cases hk : i.node = some n
  swap
  · exact absurd (by rw [h.node_eq hk]) hne
  cases h with
  | nodeStart _ hst => cases hk; exact .inl ⟨rfl, hst, by simp⟩
  | nodeSleep _ hst => cases hk; exact .inr (.inl ⟨rfl, hst, by simp⟩)
  | nodeWake _ hst => cases hk; exact .inr (.inr ⟨rfl, hst, by simp⟩)
  | _ => cases hk <;> simp [State.node_releaseAll, State.node_storeFrame, State.node_setMoBusy, State.setBitmaps] at hne

/-- The events that move a node's state: reset, a frame that wakes it, an error that turns it off, a completed recovery. -/
theorem State.EventTo.nodeState_moves {a : Input} (h : s.EventTo a t) {n : NodeId}
    (hne : (t.node n).state ≠ (s.node n).state) :
    (a = .reset ∧ (t.node n).state = .init) ∨
    ((∃ f, a = .rxFrame n f) ∧ (s.node n).state = .sleep ∧ (t.node n).state = .normal) ∨
    ((∃ v, a = .busError n v ∧ s.params.busoffTec < v) ∧ (s.node n).state = .normal ∧ (t.node n).state = .busOff) ∨
    (s.pollsRecovery a n ∧ s.params.recovSeq ≤ (s.node n).recCnt.toNat ∧ (s.node n).state = .busOff ∧
      (t.node n).state = .init) := by
  by_cases ha : a = .reset
  · subst ha
    cases h
    exact .inl ⟨rfl, by simp [NodeRegs.reset]⟩
  by_cases hk : s.eventNode a = some n
  swap
  · exact absurd (by rw [h.node_eq ha hk]) hne
  cases h with
  | reset => exact absurd rfl ha
  | rxWake _ f _ hst => cases hk; exact .inr (.inl ⟨⟨f, rfl⟩, hst, by simp⟩)
  | busOff _ v _ _ hst hv => cases hk; exact .inr (.inr (.inl ⟨⟨v, rfl, hv⟩, hst, by simp⟩))
  | recovered b _ hkind hst hc =>
    simp only [State.eventNode, hkind, if_true, Option.some.injEq] at hk
    subst hk
    refine .inr (.inr (.inr ⟨⟨b, rfl, hkind, rfl⟩, hc, hst, ?_⟩))
    rw [State.node_setBank, State.node_idleTransmits, if_pos rfl, State.node_setNode_same]
  | _ => simp_all [State.eventNode]

/-- Settles O51: by the effect of the step; a fault entry and an error return leave a node's state alone. -/
theorem nodeStateFollowsItsTable : Obligations.NodeStateFollowsItsTable := by
  intro s t n ht hne before after
  cases (step_to ht).effect with
  | quiet t hs => exact absurd (by rw [State.node_congr n hs.nodes]) hne
  | fault => rw [State.faulted_node_eq] at hne; simp at hne
  | success b w rest i hi _ _ t hq =>
    have hnext := s.runsNext_of_nextInstr hi
    rcases hq.nodeState_moves (n := n) (by simpa using hne) with ⟨rfl, hst, ht⟩ | ⟨rfl, hst, ht⟩ | ⟨rfl, hst, ht⟩
    · exact .inl ⟨by simpa using hst, ht, hnext⟩
    · exact .inr (.inl ⟨by simpa using hst, ht, hnext⟩)
    · exact .inr (.inr (.inl ⟨by simpa using hst, ht, .inl hnext⟩))
  | event a rest ha t he =>
    rcases he.nodeState_moves (n := n) (by simpa using hne) with
      ⟨rfl, ht⟩ | ⟨⟨f, rfl⟩, hst, ht⟩ | ⟨⟨v, rfl, hv⟩, hst, ht⟩ | ⟨⟨b, rfl, hkind, hnode⟩, hc, hst, ht⟩
    · exact .inr (.inr (.inr (.inr (.inr ⟨ht, ha⟩))))
    · exact .inr (.inr (.inl ⟨by simpa using hst, ht, .inr ⟨f, ha⟩⟩))
    · exact .inr (.inr (.inr (.inl ⟨by simpa using hst, ht, v, ha, by simpa using hv⟩)))
    · exact .inr (.inr (.inr (.inr (.inl ⟨by simpa using hst, ht, by simpa using hc, b, ha, by simpa using hkind,
        by simpa using hnode⟩))))

/-! ### From `BusOff` back to sending (R223) -/

/-- The node sends: it is in `Normal`, or in `Sleep`, which only a node in `Normal` enters. -/
abbrev State.started (s : State) (n : NodeId) : Prop := (s.node n).state = .normal ∨ (s.node n).state = .sleep

/-- An input that is not among the next `k + 1` is not the next one, and not among the `k` after it. -/
theorem not_mem_take_succ {a : Input} {l : List Input} {k : Nat} (h : a ∉ l.take (k + 1)) :
    l.head? ≠ some a ∧ a ∉ l.tail.take k := by
  cases l with
  | nil => simp
  | cons x l => simpa [eq_comm] using h

theorem exec_nodeTransmit_of_busOff {n : NodeId} (hst : (s.node n).state = .busOff)
    (ht : exec (.nodeTransmit n) s = .next t) : t.cur.code = .txNotNormal ∨ t.cur.code = .faulted := by
  by_cases h : s.LegalFrame
  · rw [exec_nodeTransmit_of_notNormal h (by simp [hst])] at ht
    injection ht with ht
    exact .inl (by simp [← ht])
  · obtain ⟨c, hc⟩ := exec_nodeTransmit_of_illegal (n := n) h
    rw [hc] at ht
    injection ht with ht
    exact .inr (ht ▸ (s.faulted_cur c).2)

/-- Only `NODE_START` of the node takes it out of `Init`. -/
theorem init_or_nodeStart_of_step {n : NodeId} (ht : step s = .next t) (hst : (s.node n).state = .init) :
    (t.node n).state = .init ∨ s.runsNext (.nodeStart n) := by
  by_cases hne : (t.node n).state = .init
  · exact .inl hne
  have htable := nodeStateFollowsItsTable s t n ht (by rwa [hst])
  simp only [hst, hne, reduceCtorEq, true_and, false_and, or_false] at htable
  exact .inr htable.2

/-- Reset aside, only the poll of a completed recovery takes the node out of `BusOff`. -/
theorem busOff_or_recovered_of_step {n : NodeId} (ht : step s = .next t) (hst : (s.node n).state = .busOff)
    (hreset : ¬s.inputIs .reset) : (t.node n).state = .busOff ∨
      ((t.node n).state = .init ∧ s.params.recovSeq ≤ (s.node n).recCnt.toNat ∧
        ∃ b, s.inputIs (.waitStep b) ∧ (s.bank b).waitKind = .recov ∧ (s.bank b).waitNode = n) := by
  by_cases hne : (t.node n).state = .busOff
  · exact .inl hne
  have htable := nodeStateFollowsItsTable s t n ht (by rwa [hst])
  simp only [hst, hreset, reduceCtorEq, true_and, false_and, and_false, false_or, or_false] at htable
  exact .inr htable

/-- From `Init` to sending a run passes a `NODE_START` of the node, issued in `Init`. -/
theorem nodeStart_of_run {n : NodeId} (k : Nat) : ∀ s : State, (s.node n).state = .init →
    Host.Core.run core k s = .next t → t.started n →
    ∃ (j : Nat) (v : State), j < k ∧ Host.Core.run core j s = .next v ∧ (v.node n).state = .init ∧
      v.runsNext (.nodeStart n) := by
  induction k with
  | zero =>
    intro s hst hrun hsend
    injection hrun with hrun
    subst hrun
    simp [State.started, hst] at hsend
  | succ k ih =>
    intro s hst hrun hsend
    obtain ⟨u, hstep, hrest⟩ := core_run_succ_next hrun
    rcases init_or_nodeStart_of_step hstep hst with hu | hstart
    · obtain ⟨j, v, hj, hv, hinit, hnext⟩ := ih u hu hrest hsend
      exact ⟨j + 1, v, by omega, (core_run_succ j hstep).trans hv, hinit, hnext⟩
    · exact ⟨0, s, by omega, rfl, hst, hstart⟩

/-- From `BusOff` to sending a run without reset passes a completed recovery, and a `NODE_START` after it. -/
theorem recovery_of_run {n : NodeId} (k : Nat) : ∀ s : State, (s.node n).state = .busOff →
    Host.Core.run core k s = .next t → Input.reset ∉ s.schedule.take k → t.started n →
    ∃ (i j : Nat) (u v : State) (b : BankId), i < j ∧ j < k ∧
      Host.Core.run core i s = .next u ∧ (u.node n).state = .busOff ∧ u.inputIs (.waitStep b) ∧
      (u.bank b).waitKind = .recov ∧ (u.bank b).waitNode = n ∧ s.params.recovSeq ≤ (u.node n).recCnt.toNat ∧
      Host.Core.run core j s = .next v ∧ (v.node n).state = .init ∧ v.runsNext (.nodeStart n) := by
  induction k with
  | zero =>
    intro s hst hrun _ hsend
    injection hrun with hrun
    subst hrun
    simp [State.started, hst] at hsend
  | succ k ih =>
    intro s hst hrun hreset hsend
    obtain ⟨u, hstep, hrest⟩ := core_run_succ_next hrun
    obtain ⟨hfirst, hlater⟩ := not_mem_take_succ hreset
    rcases busOff_or_recovered_of_step hstep hst hfirst with hu | ⟨hinit, hc, b, hpoll, hkind, hnode⟩
    · obtain ⟨i, j, v, w, b, hij, hj, hv, hoff, hpoll, hkind, hnode, hc, hw, hinit, hnext⟩ :=
        ih u hu hrest ((step_to hstep).schedule_eq ▸ hlater) hsend
      rw [(step_to hstep).params_eq] at hc
      exact ⟨i + 1, j + 1, v, w, b, by omega, by omega, (core_run_succ i hstep).trans hv, hoff, hpoll, hkind, hnode, hc,
        (core_run_succ j hstep).trans hw, hinit, hnext⟩
    · obtain ⟨j, v, hj, hv, hvinit, hnext⟩ := nodeStart_of_run k u hinit hrest hsend
      exact ⟨0, j + 1, s, v, b, by omega, by omega, rfl, hst, hpoll, hkind, hnode, hc, (core_run_succ j hstep).trans hv,
        hvinit, hnext⟩

/-- Settles O60: a transmission needs `Normal`; the run by induction over its steps, each by the table of `NSTATE`. -/
theorem busOffNodeSendsNothingBeforeRestart : Obligations.BusOffNodeSendsNothingBeforeRestart :=
  ⟨fun _ _ _ hst ht => exec_nodeTransmit_of_busOff hst ht,
    fun s _ _ k hst hrun hreset hsend => recovery_of_run k s hst hrun hreset hsend⟩

end Sys2Proof.Machine
end

section
/-! PROOFS. The system commands (45_irq_and_system.md R254, R255) and `NODE_BUS_STATE` (44_can_node.md R214). -/

namespace Sys2Proof.Machine

variable {s : State}

/-! ### `NOP` and `NODE_BUS_STATE` (R254, R214) -/

theorem exec_nodeBusState (n : NodeId) :
    exec (.nodeBusState n) s = .next (s.setCur { s.cur with res0 := (s.node n).state.num, code := .ok }) := by
  rw [exec, execNodeBusState, State.ret_eq_coded, State.coded_setCur]

/-- Settles O13: each command returns `OK` without a check; one case per state of the node for its number. -/
theorem nopAndBusStateReturn : Obligations.NopAndBusStateReturn := by
  intro s n
  refine ⟨s.ret_eq_coded .ok, ?_⟩
  rw [exec_nodeBusState]
  cases (s.node n).state <;> rfl

/-! ### The register ids (R57, R43) -/

/-- A node has the registers 0 to 10. -/
theorem NodeRegs.view_eq_none {r : NodeRegs} {k : Nat} (hk : 10 < k) : r.view k = none := by
  rw [NodeRegs.view]
  all_goals omega

/-- The ids on the page of 256 of node `n` name its registers, if the block has the node (R43). -/
theorem State.regView_of_nodePage {id : Nat} {n : NodeId} (hid : id / 0x100 = n.val + 1) :
    s.regView id = if n.val < s.params.nNode then (s.node n).view (id % 0x100) else none := by
  have hn := n.isLt
  have hpage : id / 0x100 - 1 = n.val := by omega
  rw [State.regView]
  · simp only [hpage]
    exact dif_pos ⟨by omega, hn⟩
  all_goals omega

theorem NodeRegs.le_of_view_eq_some {r : NodeRegs} {k : Nat} {v : Word} (hv : r.view k = some v) : k ≤ 10 := by
  by_contra hk
  rw [NodeRegs.view_eq_none (by omega)] at hv
  cases hv

/-- The id `0x100*(n+1) + k` names register `k` of node `n` (R43). -/
theorem State.regView_nodeId {n : NodeId} {k : Nat} {v : Word} (hn : n.val < s.params.nNode)
    (hv : (s.node n).view k = some v) : s.regView (0x100 * (n.val + 1) + k) = some v := by
  have hk := NodeRegs.le_of_view_eq_some hv
  rw [State.regView_of_nodePage (n := n) (by omega), if_pos hn, Nat.mul_add_mod, Nat.mod_eq_of_lt (by omega), hv]

/-- An id outside the block's two ranges and on no node's page names no register. -/
theorem State.regView_of_noPage {id : Nat} (hblock : ¬(id ≤ 0x00B ∨ (0x010 ≤ id ∧ id ≤ 0x015)))
    (hpage : ∀ n : NodeId, id / 0x100 ≠ n.val + 1) : s.regView id = none := by
  rw [State.regView]
  · refine dif_neg fun ⟨hge, hlt⟩ => hpage ⟨_, hlt⟩ ?_
    dsimp only
    omega
  all_goals omega

/-- An id outside the table of R57 names no register. -/
theorem State.regView_eq_none {id : Nat} (h : ¬(id ≤ 0x00B ∨ (0x010 ≤ id ∧ id ≤ 0x015) ∨
    ∃ n < s.params.nNode, 0x100 * (n + 1) ≤ id ∧ id ≤ 0x100 * (n + 1) + 10)) : s.regView id = none := by
  by_cases hpage : ∃ n : NodeId, id / 0x100 = n.val + 1
  · obtain ⟨n, hid⟩ := hpage
    rw [State.regView_of_nodePage hid]
    split
    · next hn => exact NodeRegs.view_eq_none (by
        by_contra hle
        exact h (.inr (.inr ⟨n, hn, by omega, by omega⟩)))
    · rfl
  · exact State.regView_of_noPage (fun hblock => h (hblock.imp_right .inl)) (not_exists.mp hpage)

/-! ### `REG_READ` (R255) -/

theorem exec_regRead_of_some {id : Nat} {v : Word} (hv : s.regView id = some v) (hid : s.cur.arg0.toNat = id) :
    exec .regRead s = .next (s.setCur { s.cur with res0 := v, code := .ok }) := by
  simp only [exec, execRegRead, hid, hv, State.ret_eq_coded, State.coded_setCur]

theorem exec_regRead_of_none (h : s.regView s.cur.arg0.toNat = none) :
    exec .regRead s = .next (s.coded .badReg) := by
  simp only [exec, execRegRead, h, State.ret_eq_coded]

/-- Settles O11: each id of the block's two ranges names its register by the table itself, each id of a node by the node's
page; the exact complement names none. -/
theorem regReadAnswersTheTable : Obligations.RegReadAnswersTheTable := by
  intro s _ id answers
  have hread {i : Nat} {v : Word} (hv : s.regView i = some v) : id = i → answers v := exec_regRead_of_some hv
  refine ⟨hread rfl, hread rfl, hread rfl, hread rfl, hread rfl, hread rfl, hread rfl, hread rfl, hread rfl, hread rfl,
    hread rfl, hread rfl, hread rfl, hread rfl, hread rfl, hread rfl, hread rfl, hread rfl, ?_,
    fun h => exec_regRead_of_none (State.regView_eq_none h)⟩
  intro n hn r at_
  have hnode (k : Nat) {v : Word} (hv : r.view k = some v) : at_ k → answers v := hread (State.regView_nodeId hn hv)
  exact ⟨hnode 0 rfl, hnode 1 rfl, hnode 2 rfl, hnode 3 rfl, hnode 4 rfl, hnode 5 rfl, hnode 6 rfl, hnode 7 rfl,
    hnode 8 rfl, hnode 9 rfl, hnode 10 rfl⟩

end Sys2Proof.Machine
end

section
/-! PROOFS. The interrupt routing boundary (45_irq_and_system.md R251 to R253, R256): what its three commands answer, the
request outputs, and the priorities exported beside them. -/

namespace Sys2Proof.Machine

variable {s : State} {n : NodeId} {k : EventKind}

/-! ### The kind operand (R118) -/

theorem kindOf_eq_none {w : Word} (h : 2 < w.toNat) : kindOf w = none := by
  unfold kindOf
  split
  · omega
  · omega
  · omega
  · rfl

theorem kindOf_eq_some {w : Word} (h : ¬2 < w.toNat) :
    kindOf w = some (if w.toNat = 0 then .txc else if w.toNat = 1 then .rxp else .berr) := by
  have hcases : w.toNat = 0 ∨ w.toNat = 1 ∨ w.toNat = 2 := by omega
  rcases hcases with hw | hw | hw <;> simp [kindOf, hw]

/-- Writing the bit of the kind a number stands for writes the field of that number. -/
theorem KindBits.set_ofNat (x : KindBits) (k : Nat) (v : Bool) :
    x.set (if k = 0 then .txc else if k = 1 then .rxp else .berr) v =
      if k = 0 then { x with txc := v } else if k = 1 then { x with rxp := v } else { x with berr := v } := by
  split_ifs <;> rfl

theorem KindPrios.set_ofNat (x : KindPrios) (k : Nat) (v : BitVec 8) :
    x.set (if k = 0 then .txc else if k = 1 then .rxp else .berr) v =
      if k = 0 then { x with txc := v } else if k = 1 then { x with rxp := v } else { x with berr := v } := by
  split_ifs <;> rfl

/-! ### The three commands (R251 to R253) -/

section
variable (h : kindOf s.cur.arg0 = none)
include h

theorem exec_irqEnable_of_none : exec (.irqEnable n) s = .next (s.faulted .assertArg) := by
  simp only [exec, execIrqEnable, h, State.raiseFault_eq]

theorem exec_irqDisable_of_none : exec (.irqDisable n) s = .next (s.faulted .assertArg) := by
  simp only [exec, execIrqDisable, h, State.raiseFault_eq]

theorem exec_irqAck_of_none : exec (.irqAck n) s = .next (s.faulted .assertArg) := by
  simp only [exec, execIrqAck, h, State.raiseFault_eq]

end

section
variable (h : kindOf s.cur.arg0 = some k)
include h

theorem exec_irqEnable_of_some : exec (.irqEnable n) s = .next
    (if s.params.prioMax < s.cur.arg1.toNat then s.faulted .assertArg
     else (s.setNode n { s.node n with
       nie := (s.node n).nie.set k true, prio := (s.node n).prio.set k (s.cur.arg1.setWidth 8) }).coded .ok) := by
  simp only [exec, execIrqEnable, h, State.raiseFault_eq, State.ret_eq_coded, ← apply_ite Host.Outcome.next]

theorem exec_irqDisable_of_some : exec (.irqDisable n) s = .next ((s.setNode n { s.node n with
    nie := (s.node n).nie.set k false, prio := (s.node n).prio.set k 0,
    nip := (s.node n).nip.set k false }).coded .ok) := by
  simp only [exec, execIrqDisable, h, State.ret_eq_coded]

theorem exec_irqAck_of_some :
    exec (.irqAck n) s = .next ((s.setNode n { s.node n with nip := (s.node n).nip.set k false }).coded .ok) := by
  simp only [exec, execIrqAck, h, State.ret_eq_coded]

end

/-! ### The request outputs and the exported priorities (R256) -/

/-- Under R50 the enable adds nothing to the latch. -/
theorem State.irqLine_of_latchInv (h : (s.node n).LatchInv) : s.irqLine n k = (s.node n).nip.get k := by
  obtain ⟨htxc, hrxp, hberr⟩ := h
  rw [State.irqLine, Bool.and_eq_right_iff_imp]
  cases k
  exacts [htxc, hrxp, hberr]

/-- A field of `NIE` is a byte of its word (R49). -/
theorem NodeRegs.nieWord_bytes (r : NodeRegs) :
    r.nieWord.extractLsb' 8 8 = r.prio.txc ∧ r.nieWord.extractLsb' 16 8 = r.prio.rxp ∧
      r.nieWord.extractLsb' 24 8 = r.prio.berr := by
  have h0 := r.prio.txc.isLt
  have h1 := r.prio.rxp.isLt
  have h2 := r.prio.berr.isLt
  have ht := r.nie.txc.toNat_lt
  have hr := r.nie.rxp.toNat_lt
  have he := r.nie.berr.toNat_lt
  refine ⟨?_, ?_, ?_⟩ <;> apply BitVec.eq_of_toNat_eq <;>
    simp only [BitVec.extractLsb'_toNat, r.nieWord_toNat, Nat.shiftRight_eq_div_pow] <;> omega

/-- Settles O33: a kind above 2 faults, as does a priority above the maximum; for the others, the write of the kind. -/
theorem irqCommandsEnableDisableAcknowledge : Obligations.IrqCommandsEnableDisableAcknowledge := by
  intro n s r k put putPrio
  refine ⟨?_, ?_, fun j => ⟨rfl, State.irqLine_of_latchInv⟩, ?_⟩
  · by_cases hk : 2 < k
    · rw [if_pos (.inl hk)]
      exact ⟨_, exec_irqEnable_of_none (kindOf_eq_none hk), s.faultEntry_faulted _⟩
    rw [exec_irqEnable_of_some (kindOf_eq_some hk), KindBits.set_ofNat, KindPrios.set_ofNat, ← BitVec.ofNat_toNat]
    by_cases hp : s.params.prioMax < s.cur.arg1.toNat
    · rw [if_pos (.inr hp), if_pos hp]
      exact ⟨_, rfl, s.faultEntry_faulted _⟩
    · rw [if_neg (not_or.mpr ⟨hk, hp⟩), if_neg hp]
  · by_cases hk : 2 < k
    · rw [if_pos hk]
      exact ⟨⟨_, exec_irqDisable_of_none (kindOf_eq_none hk), s.faultEntry_faulted _⟩,
        ⟨_, exec_irqAck_of_none (kindOf_eq_none hk), s.faultEntry_faulted _⟩⟩
    · rw [if_neg hk, exec_irqDisable_of_some (kindOf_eq_some hk), exec_irqAck_of_some (kindOf_eq_some hk)]
      simp only [KindBits.set_ofNat, KindPrios.set_ofNat]
      exact ⟨rfl, rfl⟩
  · obtain ⟨htxc, hrxp, hberr⟩ := r.nieWord_bytes
    exact ⟨htxc.symm, hrxp.symm, hberr.symm⟩

end Sys2Proof.Machine
end

section
/-! PROOFS. The hardware events (46_hardware_events.md R271 to R276): when each has a step, what the step does, and that an
event whose condition does not hold has none. -/

namespace Sys2Proof.Machine

variable {s : State} {n : NodeId} {m v : Nat} {f : CanFrame} {rest : List Input}

/-! ### The node an event names, and its frame -/

theorem State.forNode_of_lt (hn : n.val < s.params.nNode) (event : String) (r : Result) : s.forNode n event r = r :=
  if_neg (Nat.not_le.mpr hn)

theorem State.forNode_of_le (hn : s.params.nNode ≤ n.val) (event : String) (r : Result) :
    s.forNode n event r = .refused (.eventParameter event) :=
  if_pos hn

/-- Writing the registers of the event's node keeps within the event's frame. -/
theorem State.eventFrame_setNode {u : State} (hrest : { u with nodes := s.nodes, mbx := s.mbx } = s.moved rest)
    (hnode : ∀ k : NodeId, k ≠ n → u.node k = s.node k) (r : NodeRegs) : s.eventFrame (u.setNode n r) n rest :=
  ⟨hrest, fun k hk => (State.node_setNode_other u n k r hk).trans (hnode k hk)⟩

/-! ### `LOCK_SET` and `IDLE_SEQ` (R271, R276) -/

theorem State.eventLockSet_of_settling (hst : s.pllstat.state = .prescaleSettling) (hl : s.pllstat.lockBit = false) :
    s.eventLockSet = .next (s.setPll { s.pllstat with lockBit := true }) :=
  if_pos ⟨hst, hl⟩

theorem State.eventIdleSeq_of_recovering (hn : n.val < s.params.nNode) (hst : (s.node n).state = .busOff)
    (hr : (s.node n).recovering = true) :
    s.eventIdleSeq n = .next (s.setNode n { s.node n with
      recCnt := BitVec.ofNat 8 (min ((s.node n).recCnt.toNat + 1) s.params.recovSeq) }) := by
  rw [State.eventIdleSeq, State.forNode_of_lt hn, if_pos ⟨hst, hr⟩]

/-- Settles O34: each event in a state where it is enabled. -/
theorem lockSetAndIdleSeqCountOnly : Obligations.LockSetAndIdleSeqCountOnly := by
  intro s n rest
  refine ⟨fun h hst hl => ?_, fun h hn hst hr => ?_⟩
  · exact (step_cons h).trans (State.eventLockSet_of_settling (s := s.moved rest) hst hl)
  · rw [step_cons h, State.perform, State.eventIdleSeq_of_recovering (by simpa using hn) (by simpa using hst)
      (by simpa using hr), State.node_moved, State.moved_params]

/-! ### `BUS_ERROR` (R275) -/

theorem State.eventBusError_of_normal (hn : n.val < s.params.nNode) (hv : v ≤ s.params.tecMax)
    (hst : (s.node n).state = .normal) :
    let r : NodeRegs := { s.node n with
      tec := BitVec.ofNat 9 v, nip := { (s.node n).nip with berr := (s.node n).nip.berr || (s.node n).nie.berr } }
    s.eventBusError n v =
      .next (s.setNode n (if s.params.busoffTec < v then { r with state := .busOff, recCnt := 0 } else r)) := by
  rw [State.eventBusError, State.forNode_of_lt hn, if_neg (Nat.not_lt.mpr hv), if_pos hst, NodeRegs.latch_berr]

/-- Settles O39: the event in a state where it is enabled, the latch rule of R50 written out. -/
theorem busErrorReportsTheCounter : Obligations.BusErrorReportsTheCounter := by
  intro s n v rest h hn hv hst r r1
  have hevent := State.eventBusError_of_normal (s := s.moved rest) (by simpa using hn) (by simpa using hv)
    (by simpa using hst)
  rw [State.node_moved, State.moved_params] at hevent
  exact (step_cons h).trans hevent

/-! ### `TX_DONE` (R273) -/

/-- The enabling condition of `TX_DONE` on the bits of the three bitmaps. -/
theorem State.txDoneEnabled_iff : s.txDoneEnabled n m = true ↔
    (s.node n).state = .normal ∧ (s.node n).nalloc.getLsbD m = true ∧ (s.node n).ndir.getLsbD m = true ∧
      (s.node n).nbusy.getLsbD m = true := by
  simp only [State.txDoneEnabled, bitmapGet, Bool.and_eq_true, decide_eq_true_eq, and_assoc]

/-- The state after the transmission of object `m` has completed. -/
def State.txCompleted (s : State) (n : NodeId) (m : Nat) : State :=
  (s.setMoBusy n m false).setNode n { s.node n with
    nbusy := bitmapSet (s.node n).nbusy m false,
    nip := { (s.node n).nip with txc := (s.node n).nip.txc || (s.node n).nie.txc } }

theorem State.eventTxDone_of_enabled (hn : n.val < s.params.nNode) (hm : m < s.params.nMbx)
    (h : s.txDoneEnabled n m = true) : s.eventTxDone n m = .next (s.txCompleted n m) := by
  rw [State.eventTxDone, State.forNode_of_lt hn, if_neg (Nat.not_le.mpr hm), if_pos h]
  dsimp only
  rw [State.node_setMoBusy, if_pos rfl, NodeRegs.latch_txc, State.txCompleted]

@[simp] theorem State.node_txCompleted (m : Nat) : (s.txCompleted n m).node n = { s.node n with
    nbusy := bitmapSet (s.node n).nbusy m false,
    nip := { (s.node n).nip with txc := (s.node n).nip.txc || (s.node n).nie.txc } } :=
  State.node_setNode_same _ _ _

/-- A completed transmission leaves the object's words but for `MOCTRL.BUSY` (R273). -/
theorem State.mbxRead_txCompleted (hw : s.mbx.wf) {w : Nat} (hm : m < 32) (hw6 : w < 6) :
    (s.txCompleted n m).mbxRead n m w = if w = 0 then moSetBusy (s.moctrl n m) false else s.mbxRead n m w := by
  rw [State.txCompleted, State.mbxRead_setNode, State.mbxRead_setMoBusy s n n m m w false hw hm hm (by omega)]
  simp only [true_and]

theorem State.txCompleted_wf (hw : s.mbx.wf) (n : NodeId) (m : Nat) : (s.txCompleted n m).mbx.wf :=
  State.mbx_wf_of_eq (State.setNode_mbx _ _ _) (s.setMoBusy_wf n m false hw)

theorem State.sameOutsideObject_txCompleted (s : State) (n : NodeId) (m : Nat) :
    s.sameOutsideObject (s.txCompleted n m) n m := by
  intro a ha
  rw [State.txCompleted, State.setNode_mbx, State.read_setMoBusy_other _ _ _ _ _ (ha 0 (by decide))]

theorem State.eventFrame_txCompleted (s : State) (n : NodeId) (m : Nat) (rest : List Input) :
    s.eventFrame ((s.moved rest).txCompleted n m) n rest :=
  State.eventFrame_setNode ((s.moved rest).setMoBusy_rest n m false)
    (fun k hk => by rw [State.node_setMoBusy, if_neg hk, State.node_moved]) _

/-- Settles O37: the event in a state where it is enabled, then the registers and the words of the object it frees. -/
theorem txDoneFreesTheObject : Obligations.TxDoneFreesTheObject := by
  intro s n m rest h hw hp hn hm hst halloc hdir hbusy r
  have hm32 : m < 32 := by omega
  have hw0 : (s.moved rest).mbx.wf := State.mbx_wf_of_eq (State.moved_mbx s rest) hw
  have henabled : (s.moved rest).txDoneEnabled n m = true := State.txDoneEnabled_iff.mpr ⟨hst, halloc, hdir, hbusy⟩
  refine ⟨(s.moved rest).txCompleted n m, (step_cons h).trans (State.eventTxDone_of_enabled hn hm henabled),
    s.eventFrame_txCompleted n m rest, ?_, fun k _ => ?_, State.txCompleted_wf hw0 n m,
    (s.moved rest).sameOutsideObject_txCompleted n m, fun i _ => ?_, fun w hw6 hne => ?_⟩
  · rw [State.node_txCompleted, State.node_moved]
  · rw [State.node_txCompleted, State.node_moved]
    exact bitmapGet_bitmapSet _ m k _ hm32
  · rw [State.mbxRead_txCompleted hw0 hm32 (by decide), if_pos rfl]
    exact bitmapGet_bitmapSet _ 4 i _ (by decide)
  · rw [State.mbxRead_txCompleted hw0 hm32 hw6, if_neg hne, State.mbxRead_moved]

/-! ### `RX_FRAME` (R274) -/

/-- A well-formed frame on the numbers of its length and identifier. -/
theorem CanFrame.wf_iff {p : Params} : f.wf p = true ↔
    f.dlc.toNat ≤ p.dlcMax ∧ f.id.toNat < (if f.ide = true then 2 ^ 29 else 2 ^ 11) := by
  rw [CanFrame.wf, Bool.and_eq_true, decide_eq_true_iff, Bool.not_eq_true', ← Bool.not_eq_true, idTooWide_iff, idMax]
  refine and_congr Iff.rfl ?_
  split <;> omega

/-- Object `m` is a Receive object that accepts the frame. -/
abbrev State.Receives (s : State) (n : NodeId) (f : CanFrame) (m : Nat) : Prop :=
  (s.node n).nalloc.getLsbD m = true ∧ (s.node n).ndir.getLsbD m = false ∧ s.accepts n m f.ide f.id = true

/-- Object `m` is an empty Receive object that accepts the frame. -/
abbrev State.Takes (s : State) (n : NodeId) (f : CanFrame) (m : Nat) : Prop :=
  s.Receives n f m ∧ (s.node n).nbusy.getLsbD m = false

theorem State.takes_iff (s : State) (n : NodeId) (f : CanFrame) (m : Nat) :
    (bitmapGet (s.node n).nalloc m && !bitmapGet (s.node n).ndir m && !bitmapGet (s.node n).nbusy m &&
      s.accepts n m f.ide f.id) = true ↔ s.Takes n f m := by
  simp only [bitmapGet, Bool.and_eq_true, Bool.not_eq_true', State.Takes, State.Receives]
  tauto

/-- `rx_match` (R195) as a quantified statement. -/
theorem State.rxMatch_iff : s.rxMatch n f.ide f.id = true ↔ ∃ m < s.params.nMbx, s.Receives n f m := by
  simp only [State.rxMatch, List.any_eq_true, List.mem_range, bitmapGet, Bool.and_eq_true, Bool.not_eq_true', and_assoc]

/-- The state after object `m` has taken the frame. -/
def State.received (s : State) (n : NodeId) (f : CanFrame) (m : Nat) : State :=
  let d := maskData f.dlc f.rtr f.dl f.dh
  (s.storeFrame n m f.dlc f.rtr f.ide f.id d.1 d.2).setNode n { s.node n with
    nbusy := bitmapSet (s.node n).nbusy m true,
    nip := { (s.node n).nip with rxp := (s.node n).nip.rxp || (s.node n).nie.rxp } }

theorem State.receive_of_inactive (hst : (s.node n).state = .init ∨ (s.node n).state = .busOff) : s.receive n f = s := by
  rcases hst with hst | hst <;> rw [State.receive, hst]

theorem State.receive_of_sleep (hst : (s.node n).state = .sleep) :
    s.receive n f = s.setNode n { s.node n with state := .normal } := by
  rw [State.receive, hst]
  rfl

section
variable (hst : (s.node n).state = .normal)
include hst

/-- In `Normal` the search decides, and where it finds no object, the match. -/
theorem State.receive_of_normal : s.receive n f = (s.rxTarget n f.ide f.id).elim
    (if s.rxMatch n f.ide f.id then s.setNode n { s.node n with rxLost := true } else s) (s.received n f) := by
  rw [State.receive, hst]
  dsimp only
  cases s.rxTarget n f.ide f.id with
  | none => rfl
  | some m =>
    dsimp only
    rw [State.node_storeFrame, if_pos rfl, NodeRegs.latch_rxp]
    rfl

/-- The frame goes to the least empty object that accepts it. -/
theorem State.receive_of_least (hm : m < s.params.nMbx) (h : s.Takes n f m) (hleast : ∀ k < m, ¬s.Takes n f k) :
    s.receive n f = s.received n f m := by
  have htarget : s.rxTarget n f.ide f.id = some m := leastMbx_of_least (s.takes_iff n f) hm h hleast
  rw [State.receive_of_normal hst, htarget, Option.elim_some]

/-- No empty object accepts the frame. -/
theorem State.receive_of_full (hnone : ∀ m < s.params.nMbx, ¬s.Takes n f m) : s.receive n f =
    if s.rxMatch n f.ide f.id then s.setNode n { s.node n with rxLost := true } else s := by
  have htarget : s.rxTarget n f.ide f.id = none := leastMbx_of_empty (s.takes_iff n f) hnone
  rw [State.receive_of_normal hst, htarget, Option.elim_none]

theorem State.receive_of_lost (hsome : ∃ m < s.params.nMbx, s.Receives n f m)
    (hnone : ∀ m < s.params.nMbx, ¬s.Takes n f m) : s.receive n f = s.setNode n { s.node n with rxLost := true } := by
  rw [State.receive_of_full hst hnone, if_pos (State.rxMatch_iff.mpr hsome)]

theorem State.receive_of_ignored (hnone : ∀ m < s.params.nMbx, ¬s.Receives n f m) : s.receive n f = s := by
  have hmatch : ¬s.rxMatch n f.ide f.id = true := fun h =>
    have ⟨m, hm, hrec⟩ := State.rxMatch_iff.mp h
    hnone m hm hrec
  rw [State.receive_of_full hst fun m hm h => hnone m hm h.1, if_neg hmatch]

end

@[simp] theorem State.node_received (m : Nat) : (s.received n f m).node n = { s.node n with
    nbusy := bitmapSet (s.node n).nbusy m true,
    nip := { (s.node n).nip with rxp := (s.node n).nip.rxp || (s.node n).nie.rxp } } :=
  State.node_setNode_same _ _ _

/-- The six words of the object that takes the frame; the filter words stay (R274). -/
theorem State.mbxRead_received (hw : s.mbx.wf) {w : Nat} (hm : m < 32) (hw6 : w < 6) :
    (s.received n f m).mbxRead n m w =
      let d := maskData f.dlc f.rtr f.dl f.dh
      if w = 0 then moSetFrame (s.moctrl n m) f.dlc f.rtr f.ide
      else if w = 1 then f.id else if w = 4 then d.1 else if w = 5 then d.2 else s.mbxRead n m w := by
  rw [State.received, State.mbxRead_setNode, State.mbxRead_storeFrame s n n m m w _ _ _ _ _ _ hw hm hm (by omega),
    if_pos ⟨rfl, rfl⟩]

theorem State.received_wf (hw : s.mbx.wf) (n : NodeId) (f : CanFrame) (m : Nat) : (s.received n f m).mbx.wf :=
  State.mbx_wf_of_eq (State.setNode_mbx _ _ _) (s.storeFrame_wf n m _ _ _ _ _ _ hw)

theorem State.sameOutsideObject_received (s : State) (n : NodeId) (f : CanFrame) (m : Nat) :
    s.sameOutsideObject (s.received n f m) n m := by
  intro a ha
  rw [State.received, State.setNode_mbx, State.read_storeFrame_other _ _ _ _ _ _ _ _ _ _ ha]

theorem State.eventFrame_received (s : State) (n : NodeId) (f : CanFrame) (m : Nat) (rest : List Input) :
    s.eventFrame ((s.moved rest).received n f m) n rest :=
  State.eventFrame_setNode ((s.moved rest).storeFrame_rest n m _ _ _ _ _ _)
    (fun k hk => by rw [State.node_storeFrame, if_neg hk, State.node_moved]) _

/-- A well-formed frame of a node the block has is always received (R274). -/
theorem step_rxFrame (h : s.schedule = .rxFrame n f :: rest) (hn : n.val < s.params.nNode) (hf : f.wf s.params = true) :
    step s = .next ((s.moved rest).receive n f) := by
  rw [step_cons h, State.perform, State.eventRxFrame, State.forNode_of_lt (by simpa using hn), State.moved_params,
    if_pos hf]

/-- Settles O38: one lemma per way a frame is received, by the node's state and the objects that accept it. -/
theorem rxFrameStoresWakesOrDrops : Obligations.RxFrameStoresWakesOrDrops := by
  intro s n f rest h hw hp hn hlen hid r s0 receives takes
  have hstep := step_rxFrame h hn (CanFrame.wf_iff.mpr ⟨hlen, hid⟩)
  refine ⟨fun hst => ?_, fun hst => ?_, fun hst => ⟨fun hnone => ?_, fun hsome hnone => ?_, fun m hm htakes hleast => ?_⟩⟩
  · exact hstep.trans (congrArg _ (State.receive_of_inactive (s := s0) hst))
  · exact hstep.trans (congrArg _ (State.receive_of_sleep (s := s0) hst))
  · exact hstep.trans (congrArg _ (State.receive_of_ignored (s := s0) hst hnone))
  · exact hstep.trans (congrArg _ (State.receive_of_lost (s := s0) hst hsome hnone))
  have hm32 : m < 32 := by omega
  have hw0 : s0.mbx.wf := State.mbx_wf_of_eq (State.moved_mbx s rest) hw
  refine ⟨s0.received n f m, hstep.trans (congrArg _ (State.receive_of_least (s := s0) hst hm htakes hleast)),
    s.eventFrame_received n f m rest, ?_, fun k _ => ?_, State.received_wf hw0 n f m,
    s0.sameOutsideObject_received n f m, fun i hi => ?_, State.mbxRead_received hw0 hm32 (by decide),
    State.mbxRead_received hw0 hm32 (by decide), State.mbxRead_received hw0 hm32 (by decide),
    State.mbxRead_received hw0 hm32 (by decide), State.mbxRead_received hw0 hm32 (by decide)⟩
  · rw [State.node_received, State.node_moved]
  · rw [State.node_received, State.node_moved]
    exact bitmapGet_bitmapSet _ m k _ hm32
  · rw [State.mbxRead_received hw0 hm32 (by decide)]
    exact getLsbD_moSetFrame _ _ _ _ hi

/-! ### Events without a step (R271 to R276) -/

theorem State.eventTxDone_of_outOfRange (h : s.params.nNode ≤ n.val ∨ s.params.nMbx ≤ m) :
    s.eventTxDone n m = .refused (.eventParameter "TX_DONE") := by
  by_cases hn : s.params.nNode ≤ n.val
  · exact State.forNode_of_le hn _ _
  · rw [State.eventTxDone, State.forNode_of_lt (Nat.lt_of_not_le hn), if_pos (h.resolve_left hn)]

theorem State.eventTxDone_of_disabled (hn : n.val < s.params.nNode) (hm : m < s.params.nMbx)
    (h : ¬s.txDoneEnabled n m = true) : s.eventTxDone n m = .refused (.eventNotEnabled "TX_DONE") := by
  rw [State.eventTxDone, State.forNode_of_lt hn, if_neg (Nat.not_le.mpr hm), if_neg h]

theorem State.eventRxFrame_of_illFormed (hn : n.val < s.params.nNode) (h : ¬f.wf s.params = true) :
    s.eventRxFrame n f = .refused .illFormedFrame := by
  rw [State.eventRxFrame, State.forNode_of_lt hn, if_neg h]

theorem State.eventBusError_of_outOfRange (h : s.params.nNode ≤ n.val ∨ s.params.tecMax < v) :
    s.eventBusError n v = .refused (.eventParameter "BUS_ERROR") := by
  by_cases hn : s.params.nNode ≤ n.val
  · exact State.forNode_of_le hn _ _
  · rw [State.eventBusError, State.forNode_of_lt (Nat.lt_of_not_le hn), if_pos (h.resolve_left hn)]

theorem State.eventBusError_of_notNormal (hn : n.val < s.params.nNode) (hv : v ≤ s.params.tecMax)
    (hst : (s.node n).state ≠ .normal) : s.eventBusError n v = .refused (.eventNotEnabled "BUS_ERROR") := by
  rw [State.eventBusError, State.forNode_of_lt hn, if_neg (Nat.not_lt.mpr hv), if_neg hst]

theorem State.eventIdleSeq_of_disabled (hn : n.val < s.params.nNode)
    (h : ¬((s.node n).state = .busOff ∧ (s.node n).recovering = true)) :
    s.eventIdleSeq n = .refused (.eventNotEnabled "IDLE_SEQ") := by
  rw [State.eventIdleSeq, State.forNode_of_lt hn, if_neg h]

/-- Settles O41: event by event, the parameters before the enabling condition. -/
theorem eventsNotEnabledAreRefused : Obligations.EventsNotEnabledAreRefused := by
  intro s n m v f b rest
  refine ⟨fun h hdis => ?_, fun h hidle => ?_, fun h => ⟨fun hrange => ?_, fun hn hm hdis => ?_⟩,
    fun h => ⟨fun hn => ?_, fun hn hill => ?_⟩, fun h => ⟨fun hrange => ?_, fun hn hv hst => ?_⟩,
    fun h => ⟨fun hn => ?_, fun hn hdis => ?_⟩⟩ <;> refine (step_cons h).trans ?_
  · exact if_neg hdis
  · exact if_neg (by simpa using hidle)
  · exact State.eventTxDone_of_outOfRange hrange
  · exact State.eventTxDone_of_disabled hn hm (mt State.txDoneEnabled_iff.mp hdis)
  · exact State.forNode_of_le hn _ _
  · refine State.eventRxFrame_of_illFormed hn (mt CanFrame.wf_iff.mp ?_)
    rwa [not_and_or, Nat.not_le, Nat.not_lt]
  · exact State.eventBusError_of_outOfRange hrange
  · exact State.eventBusError_of_notNormal hn hv hst
  · exact State.forNode_of_le hn _ _
  · exact State.eventIdleSeq_of_disabled hn hdis

end Sys2Proof.Machine
end

section
/-! PROOFS. The fault entry (60_exceptions.md R304, R305), the error codes (R309), and the malformed operands (R301,
R303): the fault each command raises on its operands, and that it raises no other. -/

namespace Sys2Proof.Machine

variable {s : State} {i : Instr} {c : FaultCause}

/-! ### The fault entry (R304, R305) -/

/-- Settles O42: the fault entry answers `State.faulted`, which is the entry the rules describe. -/
theorem faultEntryRecordsAndAborts : Obligations.FaultEntryRecordsAndAborts :=
  fun s c => ⟨_, s.raiseFault_eq c, s.faultEntry_faulted c⟩

/-! ### The error codes (R309) -/

/-- Settles O54: a fault entry shows `FAULTED`, a success `OK` or `PENDING`, so the answer is an error return. -/
theorem errorCodesLeaveTheStateAlone : Obligations.ErrorCodesLeaveTheStateAlone := by
  intro i s t ht hok hpending hfaulted
  rcases exec_cases ht with ⟨c, rfl⟩ | ⟨c, -, rfl⟩ | hs
  · exact absurd (s.faulted_cur c).2 hfaulted
  · rw [State.coded_cur]
  · rcases hs.ok_or_waiting with ⟨-, h⟩ | ⟨-, h, -⟩
    · exact absurd h hok
    · exact absurd h hpending

/-! ### The operands each command checks (R301, R303) -/

/-- The fault command `i` raises on the operands of its bank, in the order of its checks (R303, R308). -/
def State.operandFault (s : State) (i : Instr) : Option FaultCause :=
  let a0 := s.cur.arg0.toNat
  let a1 := s.cur.arg1.toNat
  let a2 := s.cur.arg2.toNat
  match i with
  | .clkConfigure => if 2 ^ 24 ≤ a1 then some .assertArg else none
  | .clkFreq | .clkDomainEnable => if 2 + s.params.nNode ≤ a0 then some .assertArg else none
  | .btCompute => if a1 = 0 ∨ 1000 < a2 then some .assertArg else none
  | .nodeConfigure _ => if a0 = 0 ∨ 1000 < a1 then some .assertArg else none
  | .mbxAlloc _ =>
    if 8 ≤ a0 ∨ idMax (fctlFide s.cur.arg0) < a1 ∨ idMax (fctlFide s.cur.arg0) < a2 then some .assertArg else none
  | .mbxRead n => if s.params.nMbx ≤ a0 ∨ (s.node n).nalloc.getLsbD a0 = false then some .assertMbxId else none
  | .nodeTransmit _ =>
    if 2 ^ 6 ≤ a0 then some .assertArg
    else if s.params.dlcMax < a0 % 16 then some .assertPayload
    else if idMax (hdrIde s.cur.arg0) < a1 then some .assertArg
    else none
  | .irqEnable _ => if 2 < a0 ∨ s.params.prioMax < a1 then some .assertArg else none
  | .irqDisable _ | .irqAck _ => if 2 < a0 then some .assertArg else none
  | .nop | .guardAcq | .guardRel | .regRead | .clkSelect | .clkWaitLock | .clkReinit | .mbxReleaseAll _ | .nodeStart _
  | .nodeTryReceive _ | .nodeBusState _ | .nodeSleep _ | .nodeWake _ | .nodeRecover _ => none

/-! ### Operands that fault -/

theorem exec_mbxRead_of_bad {n : NodeId}
    (h : s.params.nMbx ≤ s.cur.arg0.toNat ∨ (s.node n).nalloc.getLsbD s.cur.arg0.toNat = false) :
    exec (.mbxRead n) s = .next (s.faulted .assertMbxId) := by
  have hcheck : (s.params.nMbx ≤ s.cur.arg0.toNat || !bitmapGet (s.node n).nalloc s.cur.arg0.toNat) = true := by
    simpa [bitmapGet] using h
  rw [exec, execMbxRead, if_pos hcheck, State.raiseFault_eq]

theorem exec_irqEnable_of_bad {n : NodeId} (h : 2 < s.cur.arg0.toNat ∨ s.params.prioMax < s.cur.arg1.toNat) :
    exec (.irqEnable n) s = .next (s.faulted .assertArg) := by
  by_cases hk : 2 < s.cur.arg0.toNat
  · exact exec_irqEnable_of_none (kindOf_eq_none hk)
  · rw [exec_irqEnable_of_some (kindOf_eq_some hk), if_pos (h.resolve_left hk)]

/-- Operands that fail a check of the command raise its fault. -/
theorem exec_of_operandFault (h : s.operandFault i = some c) : exec i s = .next (s.faulted c) := by
  cases i <;> simp only [State.operandFault, Option.ite_none_right_eq_some, Option.some.injEq, reduceCtorEq] at h
  case nodeTransmit n =>
    split_ifs at h with hres hlen hid <;> cases h
    · exact exec_nodeTransmit_of_reserved hres
    · exact exec_nodeTransmit_of_tooLong hres hlen
    · exact exec_nodeTransmit_of_tooWide hres hlen hid
  all_goals obtain ⟨hbad, rfl⟩ := h
  case clkConfigure =>
    rw [exec, execClkConfigure, if_pos ((pnkReserved_iff _).mpr hbad), State.raiseFault_eq]
  case clkFreq => exact exec_clkFreq_of_none (domainOf_eq_none hbad)
  case clkDomainEnable => exact exec_clkDomainEnable_of_none (domainOf_eq_none hbad)
  case btCompute => exact exec_btCompute_of_bad hbad
  case nodeConfigure => exact exec_nodeConfigure_of_badArg (btArgBad_iff.mpr hbad)
  case mbxAlloc => exact exec_mbxAlloc_of_badFilter hbad
  case mbxRead => exact exec_mbxRead_of_bad hbad
  case irqEnable => exact exec_irqEnable_of_bad hbad
  case irqDisable => exact exec_irqDisable_of_none (kindOf_eq_none hbad)
  case irqAck => exact exec_irqAck_of_none (kindOf_eq_none hbad)

/-! ### Operands that do not fault -/

/-- The answer is a next state with the fault latch as it was. -/
def State.KeepsLatch (s : State) (r : Result) : Prop := ∃ t, r = .next t ∧ t.faultReg = s.faultReg

@[simp] theorem State.keepsLatch_next (s t : State) : s.KeepsLatch (.next t) ↔ t.faultReg = s.faultReg := by
  simp [State.KeepsLatch]

@[simp] theorem State.keepsLatch_ret (s t : State) (c : ResultCode) :
    s.KeepsLatch (t.ret c) ↔ t.faultReg = s.faultReg := by
  simp [State.ret_eq_coded]

@[simp] theorem State.keepsLatch_startWait (s t : State) (k : WaitKind) (n : NodeId) (l : Word) :
    s.KeepsLatch (t.startWait k n l) ↔ t.faultReg = s.faultReg := by
  simp [State.startWait]

/-- The internal acquire and release keep the latch if what runs between and after them does. -/
theorem State.keepsLatch_guarded {u : State} {body : State → State} {rest : State → Result}
    (hu : u.faultReg = s.faultReg) (h : s.KeepsLatch (rest (body u.acquire).release)) :
    s.KeepsLatch (u.guarded body rest) := by
  unfold State.guarded
  split
  · exact (s.keepsLatch_ret u _).mpr hu
  · exact h

@[simp] theorem State.applyTiming_faultReg (s : State) (n : NodeId) (r : BtResult) :
    (s.applyTiming n r).faultReg = s.faultReg := rfl

/-- Operands that pass every check of the command raise no fault. -/
theorem exec_keepsLatch (h : s.operandFault i = none) : s.KeepsLatch (exec i s) := by
  cases i <;> simp only [State.operandFault, ite_eq_right_iff, reduceCtorEq, imp_false] at h
  case nop | nodeBusState => simp [exec, execNop, execNodeBusState]
  case guardAcq | guardRel | clkWaitLock | mbxReleaseAll | nodeStart | nodeSleep | nodeWake | nodeRecover =>
    simp only [exec, execGuardAcq, execGuardRel, execClkWaitLock, execMbxReleaseAll, execNodeStart, execNodeSleep,
      execNodeWake, execNodeRecover]
    split_ifs <;> simp
  case regRead | clkSelect | nodeTryReceive =>
    simp only [exec, execRegRead, execClkSelect, execNodeTryReceive]
    split <;> simp
  case clkReinit =>
    rw [exec, execClkReinit]
    split
    · simp
    · exact State.keepsLatch_guarded (by simp) (by simp)
  case clkConfigure =>
    rw [exec, execClkConfigure, if_neg (mt (pnkReserved_iff _).mp h)]
    split_ifs
    · simp
    · simp
    · exact State.keepsLatch_guarded (by simp) (by simp)
  case clkFreq => simp [exec_clkFreq_of_some (domainOf_eq_some h)]
  case clkDomainEnable =>
    rw [exec_clkDomainEnable_of_some (domainOf_eq_some h)]
    split_ifs <;> simp
  case btCompute =>
    rw [exec, execBtCompute, if_neg (mt btArgBad_iff.mp h)]
    split <;> simp
  case nodeConfigure n =>
    rw [exec, execNodeConfigure, if_neg (mt btArgBad_iff.mp h)]
    split
    · simp
    split
    · simp
    split
    · simp
    split
    · simp
    · exact State.keepsLatch_guarded (by simp) (by simp)
  case mbxAlloc n =>
    obtain ⟨hres, hwide⟩ := not_or.mp (mt State.badFilter_iff.mpr h)
    rw [exec, execMbxAlloc, if_neg hres, if_neg hwide]
    split_ifs
    · simp
    · simp
    split <;> simp
  case mbxRead n =>
    rw [exec, execMbxRead, if_neg (by simpa [bitmapGet] using h)]
    simp
  case nodeTransmit n =>
    have hlegal : s.LegalFrame := by
      split_ifs at h with hres hlen hid
      exact ⟨hres, hlen, hid⟩
    rw [exec_nodeTransmit_of_legal hlegal]
    split
    · simp
    · cases s.txFree n <;> simp [State.transmitted]
  case irqEnable n =>
    obtain ⟨hk, hp⟩ := not_or.mp h
    rw [exec_irqEnable_of_some (kindOf_eq_some hk), if_neg hp]
    simp
  case irqDisable n => simp [exec_irqDisable_of_some (kindOf_eq_some h)]
  case irqAck n => simp [exec_irqAck_of_some (kindOf_eq_some h)]

/-- A command faults exactly as `State.operandFault` says. -/
theorem exec_faults_iff (hs : s.faultReg = none) :
    (∃ t r, exec i s = .next t ∧ t.faultReg = some r ∧ r.cause = c) ↔ s.operandFault i = some c := by
  constructor
  · rintro ⟨t, r, ht, hr, rfl⟩
    cases hf : s.operandFault i with
    | none =>
      obtain ⟨u, hu, hlatch⟩ := exec_keepsLatch hf
      cases ht.symm.trans hu
      simp [hr, hs] at hlatch
    | some d =>
      cases ht.symm.trans (exec_of_operandFault hf)
      cases (State.faulted_faultReg s d).symm.trans hr
      rfl
  · intro h
    exact ⟨_, _, exec_of_operandFault h, State.faulted_faultReg s c, rfl⟩

/-! ### The causes one by one -/

/-- `NODE_TRANSMIT` reports a legal length before it looks at the identifier (R212). -/
theorem State.operandFault_nodeTransmit_eq_assertArg (s : State) (n : NodeId) :
    s.operandFault (.nodeTransmit n) = some .assertArg ↔ s.cur.arg0.toNat / 2 ^ 6 ≠ 0 ∨
      (s.cur.arg0.toNat % 16 ≤ s.params.dlcMax ∧ idMax (hdrIde s.cur.arg0) < s.cur.arg1.toNat) := by
  rw [State.operandFault]
  split_ifs with hres hlen hid
  · exact iff_of_true rfl (by omega)
  · exact iff_of_false (by simp) (by omega)
  · exact iff_of_true rfl (by omega)
  · exact iff_of_false (by simp) (by omega)

/-- Only `NODE_TRANSMIT` raises `ASSERT_PAYLOAD`. -/
theorem State.operandFault_eq_assertPayload (s : State) (i : Instr) :
    s.operandFault i = some .assertPayload ↔
      ∃ n, i = .nodeTransmit n ∧ s.cur.arg0.toNat / 2 ^ 6 = 0 ∧ s.params.dlcMax < s.cur.arg0.toNat % 16 := by
  cases i
  case nodeTransmit n =>
    simp only [State.operandFault, Instr.nodeTransmit.injEq, exists_eq_left']
    split_ifs with hres hlen hid
    · exact iff_of_false (by simp) (by omega)
    · exact iff_of_true rfl (by omega)
    · exact iff_of_false (by simp) (by omega)
    · exact iff_of_false (by simp) (by omega)
  all_goals simp [State.operandFault]

/-- Only `MBX_READ` raises `ASSERT_MBX_ID`. -/
theorem State.operandFault_eq_assertMbxId (s : State) (i : Instr) :
    s.operandFault i = some .assertMbxId ↔ ∃ n, i = .mbxRead n ∧
      (s.params.nMbx ≤ s.cur.arg0.toNat ∨ (s.node n).nalloc.getLsbD s.cur.arg0.toNat = false) := by
  cases i
  case nodeTransmit n =>
    simp only [State.operandFault]
    split_ifs <;> simp
  case mbxRead n =>
    simp only [State.operandFault, Option.ite_none_right_eq_some, and_true, Instr.mbxRead.injEq, exists_eq_left']
  all_goals simp [State.operandFault]

/-- `ILLEGAL_CMD` is raised by the decoder alone. -/
theorem State.operandFault_ne_illegalCmd (s : State) (i : Instr) : s.operandFault i ≠ some .illegalCmd := by
  cases i
  case nodeTransmit n =>
    simp only [State.operandFault]
    split_ifs <;> simp
  all_goals simp [State.operandFault]

/-- Settles O43: a command faults as `State.operandFault` says; for `ASSERT_ARG` its arms are the listed operands, each
other cause has its lemma. -/
theorem malformedOperandsAreExactlyTheListed : Obligations.MalformedOperandsAreExactlyTheListed := by
  intro i s hs faults a0 a1 a2 idMost
  have hfaults : ∀ c, faults c ↔ s.operandFault i = some c := fun c => exec_faults_iff hs
  refine ⟨(hfaults _).trans ?_, (hfaults _).trans (s.operandFault_eq_assertPayload i),
    (hfaults _).trans (s.operandFault_eq_assertMbxId i), mt (hfaults _).mp (s.operandFault_ne_illegalCmd i)⟩
  cases i
  case nodeTransmit n => exact s.operandFault_nodeTransmit_eq_assertArg n
  all_goals simp only [State.operandFault, Option.ite_none_right_eq_some, Option.some.injEq, reduceCtorEq, and_true,
    and_false]
  case clkConfigure => omega
  case mbxAlloc n => exact or_congr (by omega) Iff.rfl
  all_goals rfl

end Sys2Proof.Machine
end

section
/-! PROOFS. A latched fault (60_exceptions.md R306, R322): it stays until reset, no command runs, and the hardware
events write the lock bit, the mailbox memory and six registers of their node. -/

namespace Sys2Proof.Machine

variable {s t : State}

/-! ### The events while no bank waits -/

section
variable {a : Input} (h : s.EventTo a t)
include h

/-- Without a busy bank no poll step comes. -/
theorem State.EventTo.ne_waitStep (hidle : ∀ b, (s.bank b).busy = false) (b : BankId) : a ≠ .waitStep b := by
  rintro rfl
  cases h with
  | ended _ hb | locked _ hb | lockTimeout _ hb | counted _ hb | recovEnded _ hb | recovered _ hb => simp [hidle] at hb

variable (ha : a ≠ .reset)
include ha

/-- No event but reset writes a frequency. -/
theorem State.EventTo.freqs_eq :
    t.fpll = s.fpll ∧ t.freqCore = s.freqCore ∧ t.freqPeriph = s.freqPeriph ∧ t.freqCan = s.freqCan := by
  cases h with
  | reset => exact absurd rfl ha
  | _ => simp

variable (hwait : ∀ b, a ≠ .waitStep b)
include hwait

theorem State.EventTo.bank_eq (b : BankId) : t.bank b = s.bank b := by
  cases h with
  | reset => exact absurd rfl ha
  | ended c | locked c | lockTimeout c | counted c | recovEnded c | recovered c => exact absurd rfl (hwait c)
  | _ => simp

/-- Of the PLL only the lock bit is written, by `LOCK_SET` (R271). -/
theorem State.EventTo.pllstat_eq :
    t.pllstat = s.pllstat ∨ (a = .lockSet ∧ t.pllstat = { s.pllstat with lockBit := true }) := by
  cases h with
  | reset => exact absurd rfl ha
  | ended c | locked c | lockTimeout c | counted c | recovEnded c | recovered c => exact absurd rfl (hwait c)
  | lockSet => exact .inr ⟨rfl, by simp⟩
  | _ => exact .inl (by simp)

/-- The mailbox memory is written by `TX_DONE` and `RX_FRAME` (R273, R274). -/
theorem State.EventTo.mbx_eq : t.mbx = s.mbx ∨ (∃ n m, a = .txDone n m) ∨ ∃ n f, a = .rxFrame n f := by
  cases h with
  | reset => exact absurd rfl ha
  | ended c | locked c | lockTimeout c | counted c | recovEnded c | recovered c => exact absurd rfl (hwait c)
  | txDone n m => exact .inr (.inl ⟨n, m, rfl⟩)
  | rxStored n f => exact .inr (.inr ⟨n, f, rfl⟩)
  | _ => exact .inl (by simp)

end

/-- The node registers that hardware events write outside the waits: `NSTAT.STATE` and `.RXLOST`, `NECNT`, `NRECCNT`,
`NIP` and `NBUSY`. -/
def NodeRegs.SameButEvents (r r' : NodeRegs) : Prop :=
  r' = { r with
    state := r'.state, rxLost := r'.rxLost, tec := r'.tec, recCnt := r'.recCnt, nip := r'.nip, nbusy := r'.nbusy }

theorem State.EventTo.node_sameButEvents {a : Input} (h : s.EventTo a t) (ha : a ≠ .reset)
    (hwait : ∀ b, a ≠ .waitStep b) (n : NodeId) : (s.node n).SameButEvents (t.node n) := by
  by_cases hk : s.eventNode a = some n
  swap
  · rw [h.node_eq ha hk]; rfl
  cases h with
  | reset => exact absurd rfl ha
  | ended c | locked c | lockTimeout c | counted c | recovEnded c | recovered c => exact absurd rfl (hwait c)
  | lockSet => simp [State.eventNode] at hk
  | _ => simp_all [State.eventNode, NodeRegs.SameButEvents]

/-- Only the four events that name a node concern it while no bank waits. -/
theorem State.eventNode_of_not_waitStep {a : Input} {n : NodeId} (hwait : ∀ b, a ≠ .waitStep b)
    (hn : s.eventNode a = some n) :
    (∃ m, a = .txDone n m) ∨ (∃ f, a = .rxFrame n f) ∨ (∃ v, a = .busError n v) ∨ a = .idleSeq n := by
  cases a with
  | waitStep b => exact absurd rfl (hwait b)
  | _ => simp_all [State.eventNode]

/-! ### A step while a fault is latched -/

theorem State.faultInv_iff (s : State) : s.FaultInv ↔ (s.faultReg ≠ none → ∀ b, (s.bank b).busy = false) :=
  imp_congr_right fun _ => ⟨fun h b => by cases b; exacts [h.1, h.2], fun h => ⟨h .fg, h .irq⟩⟩

/-- What the block may do while a fault is latched, its banks aside (R322). -/
structure State.LatchedStep (s t : State) : Prop where
  fault : t.faultReg = s.faultReg
  idle : t.FaultInv
  prot : t.prot = s.prot
  protectedRegs : s.sameProtected t
  clken : t.clken = s.clken
  pll : t.pllstat = { s.pllstat with lockBit := t.pllstat.lockBit }
  freqs : t.fpll = s.fpll ∧ t.freqCore = s.freqCore ∧ t.freqPeriph = s.freqPeriph ∧ t.freqCan = s.freqCan
  node : ∀ n : NodeId, (s.node n).SameButEvents (t.node n)
  pllCause : t.pllstat ≠ s.pllstat → s.inputIs .lockSet
  nodeCause : ∀ n : NodeId, t.node n ≠ s.node n →
    (∃ m, s.inputIs (.txDone n m)) ∨ (∃ f, s.inputIs (.rxFrame n f)) ∨ (∃ v, s.inputIs (.busError n v)) ∨
      s.inputIs (.idleSeq n)
  mbxCause : t.mbx ≠ s.mbx → (∃ n m, s.inputIs (.txDone n m)) ∨ ∃ n f, s.inputIs (.rxFrame n f)

/-- A step that changes nothing but the banks, and no wait. -/
theorem State.LatchedStep.of_sameButBanks (h : s.sameButBanks t) (hb : ∀ b, (t.bank b).busy = (s.bank b).busy)
    (hs : s.FaultInv) : s.LatchedStep t := by
  have ⟨_, hnodes, hmbx, hprot, hfault, hpll, _, _, _, hclken, hfreqs⟩ := h
  have hnode : ∀ n, t.node n = s.node n := fun n => State.node_congr n hnodes
  exact {
    fault := hfault
    idle := t.faultInv_iff.mpr fun hf b => (hb b).trans (s.faultInv_iff.mp hs (hfault ▸ hf) b)
    prot := hprot
    protectedRegs := h.sameProtected
    clken := hclken
    pll := by rw [hpll]
    freqs := hfreqs
    node := fun n => by rw [hnode]; rfl
    pllCause := absurd hpll
    nodeCause := fun n => absurd (hnode n)
    mbxCause := absurd hmbx }

/-- A hardware event. -/
theorem State.LatchedStep.of_event {a : Input} {rest : List Input} (h : (s.moved rest).EventTo a t) (ha : s.inputIs a)
    (hreset : a ≠ .reset) (hf : s.faultReg ≠ none) (hs : s.FaultInv) : s.LatchedStep t := by
  have hidle : ∀ b, ((s.moved rest).bank b).busy = false := fun b => by simpa using s.faultInv_iff.mp hs hf b
  have hwait := h.ne_waitStep hidle
  have hpll := h.pllstat_eq hreset hwait
  rw [State.moved_pllstat] at hpll
  exact {
    fault := by simpa using h.faultReg_eq hreset
    idle := h.faultInv (by simpa [State.FaultInv] using hs)
    prot := by simpa using h.prot_eq hreset
    protectedRegs := by simpa [State.sameProtected] using h.sameProtected hreset
    clken := by simpa using h.clken_eq hreset
    pll := by rcases hpll with hp | ⟨-, hp⟩ <;> rw [hp]
    freqs := by simpa using h.freqs_eq hreset
    node := fun n => by simpa using h.node_sameButEvents hreset hwait n
    pllCause := fun hne => (hpll.resolve_left hne).1 ▸ ha
    nodeCause := fun n hne => by
      have hn : (s.moved rest).eventNode a = some n := by
        by_contra hk
        exact hne (by simpa using h.node_eq hreset hk)
      rcases State.eventNode_of_not_waitStep hwait hn with ⟨m, rfl⟩ | ⟨f, rfl⟩ | ⟨v, rfl⟩ | rfl
      · exact .inl ⟨m, ha⟩
      · exact .inr (.inl ⟨f, ha⟩)
      · exact .inr (.inr (.inl ⟨v, ha⟩))
      · exact .inr (.inr (.inr ha))
    mbxCause := fun hne => by
      rcases (h.mbx_eq hreset hwait).resolve_left (by simpa using hne) with ⟨n, m, rfl⟩ | ⟨n, f, rfl⟩
      · exact .inl ⟨n, m, ha⟩
      · exact .inr ⟨n, f, ha⟩ }

/-- While a fault is latched no command runs (R110), so a step is quiet or an event. -/
theorem State.Effect.latchedStep (h : s.Effect t) (hf : s.faultReg ≠ none) (hs : s.FaultInv)
    (hreset : ¬s.inputIs .reset) : s.LatchedStep t := by
  cases h with
  | quiet t hsame hb => exact .of_sameButBanks hsame hb hs
  | fault _ _ _ _ _ _ hnone | success _ _ _ _ _ _ hnone => exact absurd hnone hf
  | event a rest ha t he => exact .of_event he ha (fun e => hreset (e ▸ ha)) hf hs

/-! ### The banks while a fault is latched -/

/-- The banks after a step while a fault is latched: a bank is as before, or the host has written one of its operands,
or a command word it wrote was refused. -/
theorem State.StepTo.bank_of_fault (h : s.StepTo t) (hf : s.faultReg ≠ none) (hs : s.FaultInv)
    (hreset : ¬s.inputIs .reset) (b : BankId) : t.bank b = s.bank b ∨
      (∃ i v, s.nextWrite = some (b, i, v) ∧ i ≠ 0 ∧ t.bank b = (s.storeOperand b i v).bank b) ∨
      ∃ w, s.nextCommand = some (b, w) ∧ t.bank b = { s.bank b with cmd := w, code := .faulted } := by
  have hidle := s.faultInv_iff.mp hs hf
  cases h with
  | idle => exact .inl rfl
  | read => exact .inl (by simp)
  | operand _ _ _ _ _ c _ _ _ _ _ i v hw hi he =>
    by_cases hb : b = c
    · subst hb
      exact .inr (.inl ⟨i, v, hw, hi, by rw [State.bank_setBank, if_pos rfl]; exact he⟩)
    · exact .inl (by rw [State.bank_setBank, if_neg hb, State.bank_moved])
  | ignored _ _ _ _ c _ _ hbusy => simp [hidle] at hbusy
  | latched _ _ _ _ c w hc =>
    by_cases hb : b = c
    · subst hb
      exact .inr (.inr ⟨w, hc, by rw [State.bank_setBank, if_pos rfl]⟩)
    · exact .inl (by rw [State.bank_setBank, if_neg hb, State.bank_moved])
  | illegal _ _ _ _ _ _ _ _ hnone | command _ _ _ _ _ _ _ _ hnone => exact absurd hnone hf
  | event a rest h _ t he =>
    have ha : a ≠ .reset := by rintro rfl; exact hreset (by simp [State.inputIs, h])
    exact .inl (by simpa using he.bank_eq ha (he.ne_waitStep (by simpa using hidle)) b)

/-- A write of a slot other than `CMD` keeps `CMD` and `STAT.CODE` of its bank. -/
theorem State.bank_storeOperand_cmd_code (s : State) (b : BankId) (i : Fin 16) (v : Word) :
    ((s.storeOperand b i v).bank b).cmd = (s.bank b).cmd ∧ ((s.storeOperand b i v).bank b).code = (s.bank b).code := by
  obtain ⟨a0, a1, a2, a3, a4, e⟩ := s.storeOperand_eq b i v
  rw [e]
  simp

/-- Settles O44: outside the banks a step while a fault is latched is quiet or an event; of the banks it writes what the
host wrote. -/
theorem faultLatchStaysUntilReset : Obligations.FaultLatchStaysUntilReset := by
  intro s t hf hs hreset ht
  obtain ⟨hfault, hidle, hprot, hprotected, hclken, hpll, ⟨hfpll, hcore, hperiph, hcan⟩, hnode, hpllCause, hnodeCause,
    hmbxCause⟩ := (step_to ht).effect.latchedStep hf hs hreset
  refine ⟨hfault, hidle, hprot, hprotected, hclken, hpll, hfpll, hcore, hperiph, hcan, hnode, hpllCause, hnodeCause,
    hmbxCause, fun b => ?_⟩
  rcases (step_to ht).bank_of_fault hf hs hreset b with hb | ⟨i, v, hw, hi, hb⟩ | ⟨w, hc, hb⟩
  · exact ⟨.inl (by rw [hb]), fun hne => by simp [hb] at hne⟩
  · exact ⟨.inr ⟨i, v, hw, hi, hb⟩, fun hne => by simp [hb, s.bank_storeOperand_cmd_code b i v] at hne⟩
  · exact ⟨.inl (by rw [hb]), fun _ => ⟨⟨w, hc, by rw [hb]⟩, by rw [hb]⟩⟩

end Sys2Proof.Machine
end

section
/-! PROOFS. Reset (46_hardware_events.md R277, 70_reset_and_hazards.md R340): every slot, register and mailbox word reads
0, `ID` aside. -/

namespace Sys2Proof.Machine

/-- Every slot of a bank reads 0 after reset. -/
theorem State.portRead_resetBlock (s : State) (b : BankId) (i : Fin 16) : s.resetBlock.portRead b i = 0 := by
  simp only [State.portRead, State.bank_resetBlock]
  split <;> rfl

/-- Every register of a node reads 0 after reset. -/
theorem NodeRegs.view_reset {k : Nat} {v : Word} (h : NodeRegs.reset.view k = some v) : v = 0 := by
  have hk := NodeRegs.le_of_view_eq_some h
  have table : ∀ k ≤ 10, NodeRegs.reset.view k = some 0 := by decide
  simpa [table k hk] using h.symm

/-- The views of the structured registers of the block at their reset values. -/
theorem resetWords_eq_zero :
    Prot.word ⟨false, false, .fg⟩ = 0 ∧ PllStat.word ⟨.disabled, false, false⟩ = 0 ∧ PllCon.word ⟨0, 0, 0⟩ = 0 ∧
      CcuCon.word ⟨0, 0, 0⟩ = 0 ∧ ClkEn.word ⟨false, false, false⟩ = 0 ∧ Bank.reset.waitCtl = 0 := by
  decide

/-- Every register of the block but `ID` reads 0 after reset. -/
theorem State.regView_resetBlock (s : State) {id : Nat} {v : Word} (h : s.resetBlock.regView id = some v)
    (hid : id ≠ 0) : v = 0 := by
  obtain ⟨hprot, hpll, hpllcon, hccucon, hclken, hwait⟩ := resetWords_eq_zero
  unfold State.regView at h
  split at h
  case h_1 => exact absurd rfl hid
  case h_19 =>
    split at h
    · split at h
      · rw [State.node_resetBlock] at h
        exact NodeRegs.view_reset h
      · cases h
    · cases h
  all_goals
    injection h with h
    subst h
  case h_2 => exact hprot
  case h_4 => exact hpll
  case h_6 => exact hpllcon
  case h_7 => exact hccucon
  case h_8 => exact hclken
  case h_17 | h_18 => exact hwait
  all_goals rfl

/-- Settles O40: reset clears the banks, the registers and the mailbox memory of every state, and `State.reset` is reset
already. -/
theorem resetLeavesEveryRegisterZero : Obligations.ResetLeavesEveryRegisterZero := by
  unfold Obligations.ResetLeavesEveryRegisterZero
  intro zeroed
  have hzero : ∀ s : State, zeroed s.resetBlock := fun s =>
    ⟨s.portRead_resetBlock, fun _ _ => s.regView_resetBlock, rfl, fun _ _ _ => rfl, rfl,
      fun n => by rw [State.node_resetBlock]; rfl, rfl⟩
  exact ⟨⟨hzero State.reset, rfl⟩, fun s rest h => ⟨_, step_cons h, rfl, rfl, hzero (s.moved rest)⟩⟩

end Sys2Proof.Machine
end
